-- ==== Sys2Proof/Word.lean ====
section
/-! DEFINITION. The word types: a byte (u8) and the 32-bit request word (00_scope.md R8, 30_encoding.md R80). -/
namespace Sys2Proof

/-- A byte (u8, 00_scope.md R8). -/
abbrev Byte := BitVec 8

/-- A request word on the operation port, and a register the host reads (30_encoding.md R80, 10_state.md R22). -/
abbrev Word := BitVec 32

end Sys2Proof
end

