-- ==== Sys2Proof/Config.lean ====
section
/-! DEFINITION. What an implementation fixes (00_scope.md R6): the parameters BAUD and HEX_LC, which the read-only
register CONFIG shows (10_state.md R21), with their defaults, and the OPEN parameter MAX_LINE. -/
namespace Sys2Proof.Config

/-- The least legal `MAX_LINE` (00_scope.md R6). -/
def leastMaxLine : Nat := 521

/-- How far `MAX_LINE` exceeds its least legal value (00_scope.md R6: OPEN, at least 521). No body: no proof
can see its value, so every statement holds for every legal `MAX_LINE` (log 10). -/
opaque maxLineExtra : Nat

/-- `MAX_LINE`, the capacity of LINEBUF in characters (00_scope.md R6, 10_state.md R33). -/
def maxLine : Nat := maxLineExtra + leastMaxLine

/-- The default of CONFIG.BAUD_SEL: 9600 baud (00_scope.md R6). DESIGN CHOICE (log 11): the value State.reset shows. -/
def defaultBaudSel : Bool := false

/-- The default of CONFIG.HEX_LC (00_scope.md R6). DESIGN CHOICE (log 11): the value State.reset shows. -/
def defaultHexLc : Bool := false

end Sys2Proof.Config
end

