-- ==== Sys2Proof/Machine/Constants.lean ====
section
/-! DEFINITION. The numeric literals of the spec, each named once, so that a correction touches one place
(00_scope.md R6, R7; 91_not_in_source.md N29; log 21). ASCII codes are the spec's general-knowledge item G1 (log 22). -/
namespace Sys2Proof.Machine

/-- Bytes of the device ID, `DEVID_LEN` (00_scope.md R6). -/
def devIdLen : Nat := 24

/-- Most response bytes one SEND reads, `RESP_MAX` (00_scope.md R6). -/
def respMax : Nat := 255

/-- Most data bytes in a record, `REC_MAX` (00_scope.md R6). -/
def recMax : Nat := 255

/-- Largest byteCount a packet carries, `BUILD_MAX_COUNT` (00_scope.md R6). -/
def buildMaxCount : Nat := 250

/-- Largest packet, `PKT_MAX` (00_scope.md R6). -/
def pktMax : Nat := 259

/-- Capacity of CKBUF and largest n of CKSUM, `CKBUF_LEN` (00_scope.md R6). -/
def ckbufLen : Nat := 256

/-- Handshake readiness timeout in seconds, `HS_TIMEOUT` (00_scope.md R6). The model has no clock (43_transmitter.md R213). -/
def hsTimeoutSeconds : Nat := 3

/-- The line rate CONFIG.BAUD_SEL = 0 selects (10_state.md R21). -/
def baudDefault : Nat := 9600

/-- The line rate CONFIG.BAUD_SEL = 1 selects (10_state.md R21). -/
def baudAlternate : Nat := 38400

/-- Data bits of a character (43_transmitter.md R200). -/
def dataBits : Nat := 8

/-- Stop bits of a character (43_transmitter.md R200). -/
def stopBits : Nat := 1

/-- First preamble byte (30_encoding.md R94). -/
def preamble0 : Byte := 0x07

/-- Second preamble byte (30_encoding.md R94). -/
def preamble1 : Byte := 0x0E

/-- Length field of an Erase packet (42_packet_framer.md R173). -/
def eraseLength : Byte := 6

/-- Length field of a Run packet (42_packet_framer.md R173). -/
def runLength : Byte := 5

/-- What Write and Verify add to REC_COUNT for the length field (42_packet_framer.md R173). -/
def lengthOffset : Byte := 5

/-- The Erase body byte, which selects mass erase (42_packet_framer.md R175). -/
def massErase : Byte := 0x00

/-- What a packet holds beside its span: preamble, length and checksum (42_packet_framer.md R179). -/
def packetOverhead : Nat := 4

/-- The synchronisation byte (30_encoding.md R96). -/
def syncChar : Byte := 0x08

/-- Response byte 0 of an Ack (30_encoding.md R97). -/
def ackByte : Byte := 0x06

/-- Response byte 0 of a Nack (30_encoding.md R97). -/
def nackByte : Byte := 0x07

/-- The record type acted on, Data (30_encoding.md R91). -/
def typeData : Byte := 0x00

/-- The line marker `:` (41_hex_decoder.md R141). -/
def charMarker : Byte := 0x3A

/-- CR (30_encoding.md R90). -/
def charCr : Byte := 0x0D

/-- LF (30_encoding.md R90). -/
def charLf : Byte := 0x0A

/-- ASCII `0` (30_encoding.md R87). -/
def char0 : Byte := 0x30

/-- ASCII `9` (30_encoding.md R87). -/
def char9 : Byte := 0x39

/-- ASCII `A`, upper case (30_encoding.md R87). -/
def charUpperA : Byte := 0x41

/-- ASCII `F`, upper case (30_encoding.md R87). -/
def charUpperF : Byte := 0x46

/-- ASCII `a`, lower case (30_encoding.md R87). -/
def charLowerA : Byte := 0x61

/-- ASCII `f`, lower case (30_encoding.md R87). -/
def charLowerF : Byte := 0x66

/-- ASCII `E`, the Erase command (30_encoding.md R93). -/
def cmdErase : Byte := 0x45

/-- ASCII `W`, the Write command (30_encoding.md R93). -/
def cmdWrite : Byte := 0x57

/-- ASCII `V`, the Verify command before rotation (30_encoding.md R93). -/
def cmdVerify : Byte := 0x56

/-- ASCII `R`, the Run command (30_encoding.md R93). -/
def cmdRun : Byte := 0x52

end Sys2Proof.Machine
end

