-- ==== Sys2Proof/Machine/Bytes.lean ====
section
/-! DEFINITION. The byte primitives of 00_scope.md R8: rotations, address halves, the 8-bit sum, its negation and
the checksum of 40_checksum.md R120. -/
namespace Sys2Proof.Machine

/-- `rotl3(b) = ((b << 3) | (b >> 5)) mod 256` (00_scope.md R8, 42_packet_framer.md R176). -/
def rotl3 (b : Byte) : Byte := (b <<< 3) ||| (b >>> 5)

/-- `rotr3(b) = ((b >> 3) | (b << 5)) mod 256` (00_scope.md R8). -/
def rotr3 (b : Byte) : Byte := (b >>> 3) ||| (b <<< 5)

/-- `hi8(a) = a[15:8]` (00_scope.md R8). -/
def hi8 (a : BitVec 16) : Byte := a.extractLsb' 8 8

/-- `lo8(a) = a[7:0]` (00_scope.md R8). -/
def lo8 (a : BitVec 16) : Byte := a.extractLsb' 0 8

/-- The u16 with high byte `hi` and low byte `lo`, `256*hi + lo` (30_encoding.md R89). -/
def u16OfBytes (hi lo : Byte) : BitVec 16 := BitVec.ofNat 16 (256 * hi.toNat + lo.toNat)

/-- `neg8(x) = (256 - x) mod 256` (00_scope.md R8). -/
def neg8 (x : Byte) : Byte := BitVec.ofNat 8 (256 - x.toNat)

/-- The running sum of the bytes of a sequence from `acc` on, each addition modulo 256 (40_checksum.md R125). -/
def sumFrom (acc : Byte) : List Byte → Byte
  | [] => acc
  | b :: bs => sumFrom (acc + b) bs

/-- `sum8(s)`, the 8-bit truncated sum, 0 for the empty sequence (00_scope.md R8). -/
def sum8 (s : List Byte) : Byte := sumFrom 0 s

/-- `checksum(s) = neg8(sum8(s))` (40_checksum.md R120). -/
def checksum (s : List Byte) : Byte := neg8 (sum8 s)

end Sys2Proof.Machine
end

