-- ==== Sys2Proof/Syntax.lean ====
section
/-! DEFINITION. The instructions: one constructor per row of spec/opcode_table.json. The first ten are the operations
of the request word (30_encoding.md R81); the other twelve are the table's wire rows, bytes that the block writes or
reads at a fixed place (30_encoding.md R91 to R97). -/
namespace Sys2Proof

/-- One constructor per row of the opcode table. -/
inductive Instr where
  /-- CK_CLR (40_checksum.md R122). -/
  | ckClr
  /-- CK_ADD with its byte operand IMM8 (40_checksum.md R123). -/
  | ckAdd (imm8 : BitVec 8)
  /-- CKSUM with its length operand N9 (40_checksum.md R125). -/
  | cksum (n9 : BitVec 9)
  /-- HEXDEC (41_hex_decoder.md R140). -/
  | hexdec
  /-- BUILD_E (42_packet_framer.md R182). -/
  | buildE
  /-- BUILD_W (42_packet_framer.md R183). -/
  | buildW
  /-- BUILD_V (42_packet_framer.md R184). -/
  | buildV
  /-- BUILD_R (42_packet_framer.md R185). -/
  | buildR
  /-- SEND (43_transmitter.md R202). -/
  | send
  /-- SYNC (43_transmitter.md R211). -/
  | sync
  /-- PKT_CMD_ERASE, packet byte 3 of an Erase packet (30_encoding.md R93). -/
  | pktCmdErase
  /-- PKT_CMD_WRITE, packet byte 3 of a Write packet (30_encoding.md R93). -/
  | pktCmdWrite
  /-- PKT_CMD_VERIFY, packet byte 3 of a Verify packet, as sent (30_encoding.md R93). -/
  | pktCmdVerify
  /-- PKT_CMD_RUN, packet byte 3 of a Run packet (30_encoding.md R93). -/
  | pktCmdRun
  /-- PKT_PREAMBLE0, packet byte 0 (30_encoding.md R94). -/
  | pktPreamble0
  /-- PKT_PREAMBLE1, packet byte 1 (30_encoding.md R94). -/
  | pktPreamble1
  /-- SYNC_BYTE, sent on TX by SYNC (30_encoding.md R96, 43_transmitter.md R212). -/
  | syncByte
  /-- RESP_ACK, response byte 0 = 0x06 (43_transmitter.md R207). -/
  | respAck
  /-- RESP_NACK, response byte 0 = 0x07 (43_transmitter.md R207). -/
  | respNack
  /-- RESP_UNDEFINED, any other response byte 0 (43_transmitter.md R207). -/
  | respUndefined (b : Byte)
  /-- HEX_TYPE_DATA, record type pair 0x00 (41_hex_decoder.md R148). -/
  | hexTypeData
  /-- HEX_TYPE_OTHER, any other record type pair (41_hex_decoder.md R144). -/
  | hexTypeOther (t : Byte)
  deriving DecidableEq, Repr

end Sys2Proof
end

