-- ==== Sys2Proof/WellFormed.lean ====
section
/-! DEFINITION. Which instructions the table admits: the operand ranges of its rows. -/
namespace Sys2Proof

/-- An instruction whose operands its row admits: N9 is at most 256 (30_encoding.md R82, R84), an Undefined response
byte is neither Ack nor Nack (30_encoding.md R97), an Other record type is not Data (30_encoding.md R91). -/
def Instr.wellFormed : Instr → Bool
  | .cksum n9 => decide (n9.toNat ≤ Machine.ckbufLen)
  | .respUndefined b => decide (b ≠ Machine.ackByte) && decide (b ≠ Machine.nackByte)
  | .hexTypeOther t => decide (t ≠ Machine.typeData)
  | .ckClr => true
  | .ckAdd _ => true
  | .hexdec => true
  | .buildE => true
  | .buildW => true
  | .buildV => true
  | .buildR => true
  | .send => true
  | .sync => true
  | .pktCmdErase => true
  | .pktCmdWrite => true
  | .pktCmdVerify => true
  | .pktCmdRun => true
  | .pktPreamble0 => true
  | .pktPreamble1 => true
  | .syncByte => true
  | .respAck => true
  | .respNack => true
  | .hexTypeData => true

end Sys2Proof
end

