-- ==== Sys2Proof/Decode.lean ====
section
/-! DEFINITION. Decoding, total on any word or wire byte, rejecting by name; the encoder and the opcode table's rows
(mask and match), from the same encoding rules (30_encoding.md R80 to R99). -/
namespace Sys2Proof

/-- Where an encoded instruction stands: the operation port, or the place of the table's wire format. -/
inductive Place where
  /-- The 32-bit request word (table format REQ32). -/
  | request
  /-- Packet byte 0 (WIRE8). -/
  | packetByte0
  /-- Packet byte 1 (WIRE8). -/
  | packetByte1
  /-- Packet byte 3 (WIRE8). -/
  | packetByte3
  /-- The byte SYNC sends on TX (WIRE8). -/
  | txHandshake
  /-- Response byte 0 on RX (WIRE8). -/
  | rxResponse0
  /-- The value of a HEX line's record type pair. -/
  | hexType
  deriving DecidableEq, Repr

/-- An encoded instruction: its place, and its bits with bit 0 the least significant (a wire byte in bits 7..0). -/
structure Encoded where
  place : Place
  bits : Word
  deriving DecidableEq, Repr

/-- Why a word or byte is no instruction. -/
inductive DecodeError where
  /-- A set bit in 7:4 or 31:25 (30_encoding.md R82). -/
  | reservedBits
  /-- OP is 0x0 or in 0xB to 0xF (30_encoding.md R82). -/
  | unassignedOp
  /-- A nonzero IMM8 with an OP other than 0x2 (30_encoding.md R82). -/
  | immNotZero
  /-- A nonzero N9 with an OP other than 0x3 (30_encoding.md R82). -/
  | lengthNotZero
  /-- N9 greater than 256 with OP = 0x3 (30_encoding.md R82). -/
  | lengthTooLarge
  /-- A byte that no row has at this place of a packet or on TX (30_encoding.md R92 to R96). -/
  | noSuchByte
  /-- More than eight bits at a place that holds one byte. -/
  | notAByte
  deriving DecidableEq, Repr

/-- OP = word[3:0] (30_encoding.md R80). -/
def fieldOp (w : Word) : BitVec 4 := w.extractLsb' 0 4

/-- word[7:4], reserved (30_encoding.md R80). -/
def fieldLowReserved (w : Word) : BitVec 4 := w.extractLsb' 4 4

/-- IMM8 = word[15:8] (30_encoding.md R83). -/
def fieldImm8 (w : Word) : BitVec 8 := w.extractLsb' 8 8

/-- N9 = word[24:16] (30_encoding.md R84). -/
def fieldN9 (w : Word) : BitVec 9 := w.extractLsb' 16 9

/-- word[31:25], reserved (30_encoding.md R80). -/
def fieldHighReserved (w : Word) : BitVec 7 := w.extractLsb' 25 7

/-- An operation that takes no operand: IMM8 and N9 must be 0 (30_encoding.md R80). -/
def decodePlain (w : Word) (i : Instr) : Except DecodeError Instr :=
  if fieldImm8 w ≠ 0 then .error .immNotZero
  else if fieldN9 w ≠ 0 then .error .lengthNotZero
  else .ok i

/-- CK_ADD: IMM8 is its operand, N9 must be 0 (30_encoding.md R80, R83). -/
def decodeCkAdd (w : Word) : Except DecodeError Instr :=
  if fieldN9 w ≠ 0 then .error .lengthNotZero else .ok (.ckAdd (fieldImm8 w))

/-- CKSUM: N9 is its operand and at most 256, IMM8 must be 0 (30_encoding.md R80, R84). -/
def decodeCksum (w : Word) : Except DecodeError Instr :=
  if fieldImm8 w ≠ 0 then .error .immNotZero
  else if (fieldN9 w).toNat > Machine.ckbufLen then .error .lengthTooLarge
  else .ok (.cksum (fieldN9 w))

/-- The operation of a request word, or why it is illegal (30_encoding.md R81, R82). -/
def decodeRequest (w : Word) : Except DecodeError Instr :=
  if fieldLowReserved w ≠ 0 ∨ fieldHighReserved w ≠ 0 then .error .reservedBits
  else match (fieldOp w).toNat with
    | 0x1 => decodePlain w .ckClr
    | 0x2 => decodeCkAdd w
    | 0x3 => decodeCksum w
    | 0x4 => decodePlain w .hexdec
    | 0x5 => decodePlain w .buildE
    | 0x6 => decodePlain w .buildW
    | 0x7 => decodePlain w .buildV
    | 0x8 => decodePlain w .buildR
    | 0x9 => decodePlain w .send
    | 0xA => decodePlain w .sync
    | _ => .error .unassignedOp

/-- The class of response byte 0 (30_encoding.md R97). -/
def decodeResponse (b : Byte) : Instr :=
  if b = Machine.ackByte then .respAck
  else if b = Machine.nackByte then .respNack
  else .respUndefined b

/-- The class of a record type byte (30_encoding.md R91). -/
def decodeHexType (t : Byte) : Instr :=
  if t = Machine.typeData then .hexTypeData else .hexTypeOther t

/-- The command of packet byte 3, as sent (30_encoding.md R93). -/
def decodeCommandByte (b : Byte) : Except DecodeError Instr :=
  if b = Machine.cmdErase then .ok .pktCmdErase
  else if b = Machine.cmdWrite then .ok .pktCmdWrite
  else if b = Machine.rotl3 Machine.cmdVerify then .ok .pktCmdVerify
  else if b = Machine.cmdRun then .ok .pktCmdRun
  else .error .noSuchByte

/-- The one byte a place has, as the instruction `i` (30_encoding.md R94, R96). -/
def decodeOnly (b expected : Byte) (i : Instr) : Except DecodeError Instr :=
  if b = expected then .ok i else .error .noSuchByte

/-- The row a byte stands for at a place that holds one byte; the operation port holds none. -/
def decodeWire (place : Place) (b : Byte) : Except DecodeError Instr :=
  match place with
  | .request => .error .noSuchByte
  | .packetByte0 => decodeOnly b Machine.preamble0 .pktPreamble0
  | .packetByte1 => decodeOnly b Machine.preamble1 .pktPreamble1
  | .packetByte3 => decodeCommandByte b
  | .txHandshake => decodeOnly b Machine.syncChar .syncByte
  | .rxResponse0 => .ok (decodeResponse b)
  | .hexType => .ok (decodeHexType b)

/-- The instruction of an encoded word or wire byte at its place, or why there is none. -/
def decode (e : Encoded) : Except DecodeError Instr :=
  if e.place = .request then decodeRequest e.bits
  else if e.bits.toNat ≥ 256 then .error .notAByte
  else decodeWire e.place (e.bits.extractLsb' 0 8)

/-- A wire byte as encoded bits. -/
def wireBits (b : Byte) : Word := b.setWidth 32

/-- The request word of an operation without operands (30_encoding.md R81). -/
def requestWord (op : BitVec 4) : Word := op.setWidth 32

/-- The word CK_ADD b, `0x0000bb02` (40_checksum.md R123). -/
def ckAddWord (imm8 : BitVec 8) : Word := requestWord 0x2 ||| (imm8.setWidth 32 <<< 8)

/-- The word CKSUM n, `(n << 16) | 0x3` (40_checksum.md R125). -/
def cksumWord (n9 : BitVec 9) : Word := requestWord 0x3 ||| (n9.setWidth 32 <<< 16)

/-- The encoding of an instruction: its place and its bits (30_encoding.md R81, R91 to R97). -/
def encode : Instr → Encoded
  | .ckClr => ⟨.request, requestWord 0x1⟩
  | .ckAdd imm8 => ⟨.request, ckAddWord imm8⟩
  | .cksum n9 => ⟨.request, cksumWord n9⟩
  | .hexdec => ⟨.request, requestWord 0x4⟩
  | .buildE => ⟨.request, requestWord 0x5⟩
  | .buildW => ⟨.request, requestWord 0x6⟩
  | .buildV => ⟨.request, requestWord 0x7⟩
  | .buildR => ⟨.request, requestWord 0x8⟩
  | .send => ⟨.request, requestWord 0x9⟩
  | .sync => ⟨.request, requestWord 0xA⟩
  | .pktCmdErase => ⟨.packetByte3, wireBits Machine.cmdErase⟩
  | .pktCmdWrite => ⟨.packetByte3, wireBits Machine.cmdWrite⟩
  | .pktCmdVerify => ⟨.packetByte3, wireBits (Machine.rotl3 Machine.cmdVerify)⟩
  | .pktCmdRun => ⟨.packetByte3, wireBits Machine.cmdRun⟩
  | .pktPreamble0 => ⟨.packetByte0, wireBits Machine.preamble0⟩
  | .pktPreamble1 => ⟨.packetByte1, wireBits Machine.preamble1⟩
  | .syncByte => ⟨.txHandshake, wireBits Machine.syncChar⟩
  | .respAck => ⟨.rxResponse0, wireBits Machine.ackByte⟩
  | .respNack => ⟨.rxResponse0, wireBits Machine.nackByte⟩
  | .respUndefined b => ⟨.rxResponse0, wireBits b⟩
  | .hexTypeData => ⟨.hexType, wireBits Machine.typeData⟩
  | .hexTypeOther t => ⟨.hexType, wireBits t⟩

/-- A row of the opcode table: its place, its mask and its match; a range row ("any other value") has mask 0. -/
structure Row where
  place : Place
  mask : Word
  pattern : Word
  deriving DecidableEq, Repr

/-- The row of a wire byte: all eight bits are compared. The byte is its named constant (00_scope.md R7). -/
def byteRow (place : Place) (b : Byte) : Row := ⟨place, 0xFF, wireBits b⟩

/-- The table's row of an instruction, as spec/opcode_table.json gives it (30_encoding.md R81 for the operations). -/
def Instr.row : Instr → Row
  | .ckClr => ⟨.request, 0xFFFFFFFF, 0x00000001⟩
  | .ckAdd _ => ⟨.request, 0xFFFF00FF, 0x00000002⟩
  | .cksum _ => ⟨.request, 0xFE00FFFF, 0x00000003⟩
  | .hexdec => ⟨.request, 0xFFFFFFFF, 0x00000004⟩
  | .buildE => ⟨.request, 0xFFFFFFFF, 0x00000005⟩
  | .buildW => ⟨.request, 0xFFFFFFFF, 0x00000006⟩
  | .buildV => ⟨.request, 0xFFFFFFFF, 0x00000007⟩
  | .buildR => ⟨.request, 0xFFFFFFFF, 0x00000008⟩
  | .send => ⟨.request, 0xFFFFFFFF, 0x00000009⟩
  | .sync => ⟨.request, 0xFFFFFFFF, 0x0000000A⟩
  | .pktCmdErase => byteRow .packetByte3 Machine.cmdErase
  | .pktCmdWrite => byteRow .packetByte3 Machine.cmdWrite
  | .pktCmdVerify => byteRow .packetByte3 (Machine.rotl3 Machine.cmdVerify)
  | .pktCmdRun => byteRow .packetByte3 Machine.cmdRun
  | .pktPreamble0 => byteRow .packetByte0 Machine.preamble0
  | .pktPreamble1 => byteRow .packetByte1 Machine.preamble1
  | .syncByte => byteRow .txHandshake Machine.syncChar
  | .respAck => byteRow .rxResponse0 Machine.ackByte
  | .respNack => byteRow .rxResponse0 Machine.nackByte
  | .respUndefined _ => ⟨.rxResponse0, 0, 0⟩
  | .hexTypeData => byteRow .hexType Machine.typeData
  | .hexTypeOther _ => ⟨.hexType, 0, 0⟩

/-- A word matches a row when its masked bits are the row's match (30_encoding.md R81). -/
def Row.matches (r : Row) (w : Word) : Bool := decide (w &&& r.mask = r.pattern)

/-- The place read for a table byte that comes without its place: the first row of the table, most specific rows
first, that has this byte (log 5). The byte 0x07 is read as the preamble, since it stands there first. -/
def placeOfByte (b : Byte) : Place :=
  if b = Machine.cmdErase ∨ b = Machine.cmdWrite ∨ b = Machine.rotl3 Machine.cmdVerify ∨ b = Machine.cmdRun then
    .packetByte3
  else if b = Machine.preamble0 then .packetByte0
  else if b = Machine.preamble1 then .packetByte1
  else if b = Machine.syncChar then .txHandshake
  else if b = Machine.typeData then .hexType
  else .rxResponse0

/-- The instruction of `w` decoded as the table numbers its bits, `nbits` of them: a 32-bit request word, or a wire
byte at the place `placeOfByte` reads it. -/
def decodeTableWord (nbits w : Nat) : Option Instr :=
  if w ≥ 2 ^ nbits then none
  else if nbits = 32 then (decodeRequest (BitVec.ofNat 32 w)).toOption
  else if nbits = 8 then
    (decodeWire (placeOfByte (BitVec.ofNat 8 w)) (BitVec.ofNat 8 w)).toOption
  else none

end Sys2Proof
end

