-- ==== Sys2Proof/Machine/State.lean ====
section
/-! DEFINITION. The machine's state (10_state.md R20 to R36), its reset values (R40), and the reasons a step can stop.
Beside the spec's state it holds, as plain data, the agents around the block: what the host has still to do and which
agent moves at each coming step (00_scope.md R3; log 6). -/
namespace Sys2Proof.Machine

/-- The result codes, in the order of their numbers 0 to 15 (10_state.md R23, 60_exceptions.md R241). -/
inductive ResultCode where
  | none | ok | skip | ack | nack | undefined | formatError | hsTimeout | hsIoErr | linkError | lengthOverflow
  | noRecord | noPacket | notSynced | illegalOp | refused
  deriving DecidableEq, Repr

/-- The causes of a FORMAT_ERROR, in the order of their numbers 0 to 3 (10_state.md R24). -/
inductive FmtCause where
  | none | missingMarker | badDigit | truncated
  deriving DecidableEq, Repr

/-- PHASE, in the order of its values 0 to 3 (10_state.md R27). -/
inductive Phase where
  | idle | sendWait | hsWait | hsRead
  deriving DecidableEq, Repr

/-- The fields of CONFIG (10_state.md R21); its reserved bits read 0 (HostView.lean, configWord). -/
structure ConfigReg where
  /-- BAUD_SEL, bit 0: false is 9600 baud, true 38400. -/
  baudSel : Bool
  /-- HEX_LC, bit 1: whether `a`-`f` are hex digits. -/
  hexLc : Bool
  deriving DecidableEq, Repr

/-- The fields of STATUS (10_state.md R22 to R26); its reserved bits read 0 (Flags.lean, Status.word). -/
structure Status where
  /-- RESULT, bits 3:0. -/
  result : ResultCode
  /-- FMT_CAUSE, bits 5:4. -/
  fmtCause : FmtCause
  /-- ABORTED, bit 6. -/
  aborted : Bool
  /-- LINK_SYNCED, bit 7. -/
  linkSynced : Bool
  /-- REC_VALID, bit 8. -/
  recValid : Bool
  /-- PKT_VALID, bit 9. -/
  pktValid : Bool
  /-- FAULT, bits 19:16. -/
  fault : ResultCode
  /-- FMT_POS, bits 29:20. -/
  fmtPos : BitVec 10
  deriving DecidableEq, Repr

/-- The record registers but for REC_DATA, which is the space RECD (10_state.md R29). -/
structure RecordRegs where
  /-- REC_COUNT. -/
  count : Byte
  /-- REC_ADDR. -/
  addr : BitVec 16
  /-- REC_TYPE. -/
  type : Byte
  /-- REC_CKS. -/
  cks : Byte
  deriving DecidableEq, Repr

/-- The cells of one byte space in canonical form: addresses strictly rising, no cell that holds what an unlisted
address reads as (Ops.lean, Memory.wf). -/
abbrev Cells := List Host.Cell

/-- The six byte spaces (20_memory.md R60). -/
structure Memory where
  /-- LINE: LINEBUF. -/
  line : Cells
  /-- CKB: CKBUF. -/
  ckb : Cells
  /-- RECD: REC_DATA. -/
  recd : Cells
  /-- PKT: PKTBUF. -/
  pkt : Cells
  /-- RESP: RESPBUF. -/
  resp : Cells
  /-- DID: DEVID. -/
  did : Cells
  deriving DecidableEq, Repr

/-- The names of the byte spaces (20_memory.md R60). -/
inductive Space where
  | line | ckb | recd | pkt | resp | did
  deriving DecidableEq, Repr

/-- The diagnostic events (10_state.md R36). -/
inductive DiagEvent where
  /-- `SkipEvent(recordType, line)`. -/
  | skip (recordType : Byte) (line : List Byte)
  /-- `DeviceIdEvent(bytes24)`. -/
  | deviceId (id : List Byte)
  deriving DecidableEq, Repr

/-- What the environment signals at one step (00_scope.md R3; 43_transmitter.md R209, R213). -/
inductive LinkEvent where
  | none | timeout | ioErr
  deriving DecidableEq, Repr

/-- What the host may do in PHASE = IDLE (60_exceptions.md R260). Byte writes at an address are the one-byte accesses of
20_memory.md R64; `line` is the whole-line form `HOST LINE` of 30_encoding.md R85. -/
inductive HostAct where
  /-- Issue a request word. -/
  | request (w : Word)
  /-- Write the characters to LINEBUF[0..] and set LINELEN to their count. -/
  | line (cs : List Byte)
  /-- Write one byte of LINEBUF. -/
  | lineByte (a : Nat) (b : Byte)
  /-- Write LINELEN. -/
  | lineLen (n : Nat)
  /-- Write bytes to CKBUF from address `a` on. -/
  | ckbuf (a : Nat) (bs : List Byte)
  deriving DecidableEq, Repr

/-- One entry of the agenda: the agent that moves at a step, with the inputs of that step (log 6). -/
inductive Turn where
  /-- The host's next action, with the link event the environment signals at that step. -/
  | host (ev : LinkEvent)
  /-- The block's step of a wait phase, with the link event and the draw of that step. -/
  | block (ev : LinkEvent) (draw : Nat)
  /-- The device appends bytes to RX. -/
  | device (bs : List Byte)
  /-- The host asserts reset. -/
  | reset
  deriving DecidableEq, Repr

/-- The machine's state. -/
structure State where
  /-- CONFIG (10_state.md R21). -/
  config : ConfigReg
  /-- STATUS (10_state.md R22). -/
  status : Status
  /-- PHASE (10_state.md R27). -/
  phase : Phase
  /-- CKACC (10_state.md R28). -/
  ckacc : Byte
  /-- REC_COUNT, REC_ADDR, REC_TYPE, REC_CKS (10_state.md R29). -/
  record : RecordRegs
  /-- PKTLEN (10_state.md R30). -/
  pktLen : BitVec 9
  /-- RESPLEN (10_state.md R31). -/
  respLen : BitVec 8
  /-- LINELEN, a count from 0 to MAX_LINE (10_state.md R33; log 15). -/
  lineLen : Nat
  /-- LINEBUF, CKBUF, REC_DATA, PKTBUF, RESPBUF and DEVID (10_state.md R29 to R34). -/
  mem : Memory
  /-- RX, head first (10_state.md R35). -/
  rx : List Byte
  /-- TX, oldest first (10_state.md R35). -/
  tx : List Byte
  /-- DIAG, oldest first (10_state.md R36). -/
  diag : List DiagEvent
  /-- The model's own: the host's actions still to be made, oldest first (log 6). -/
  hostQ : List HostAct
  /-- The model's own: which agent moves at each coming step (log 6). -/
  agenda : List Turn
  /-- The model's own: the link event signalled at the step being taken (log 6). -/
  event : LinkEvent
  /-- The model's own: the free draw of the step being taken (00_scope.md R9; log 7). -/
  draw : Nat
  deriving DecidableEq, Repr

/-- The reasons a step faults. -/
inductive Fault where
  /-- An access at `addr`, outside the space `sp`. Raised by a host write beyond a buffer (HostPort.lean), by HEXDEC with
  LINELEN > MAX_LINE and by SEND with PKTLEN > 259, which no run reaches (20_memory.md R61). SAFE: the model stops where
  the spec gives no such address (log 13). -/
  | outsideSpace (sp : Space) (addr : Nat)
  deriving DecidableEq, Repr

/-- The reasons a step is refused by the model (the block's own REFUSED result is a next state, 60_exceptions.md R244). -/
inductive Refusal where
  /-- An instruction that has no meaning yet, raised by exec's refused arms only; no arm is one. SAFE: the model stops. -/
  | notModelled (mnemonic : String)
  deriving DecidableEq, Repr

/-- The outcome of a step or of an instruction. -/
abbrev StepResult := Host.Outcome State Fault Refusal

/-- STATUS after reset: every field 0 (10_state.md R40). -/
def Status.reset : Status :=
  { result := .none, fmtCause := .none, aborted := false, linkSynced := false, recValid := false, pktValid := false,
    fault := .none, fmtPos := 0 }

/-- The record registers after reset: 0 (10_state.md R40). -/
def RecordRegs.reset : RecordRegs := { count := 0, addr := 0, type := 0, cks := 0 }

/-- The spaces after reset: every byte 0x00, so nothing is listed (10_state.md R40). -/
def Memory.reset : Memory := { line := [], ckb := [], recd := [], pkt := [], resp := [], did := [] }

/-- The machine right after reset (10_state.md R40, 70_reset_and_hazards.md R292). CONFIG shows the default parameters
(log 11); TX and DIAG, which reset leaves unchanged, are empty at the model's start (log 12); no agent has anything to
do yet, and event and draw are not read before a step sets them (logs 6, 7). -/
def State.reset : State :=
  { config := { baudSel := Config.defaultBaudSel, hexLc := Config.defaultHexLc }
    status := Status.reset
    phase := .idle
    ckacc := 0
    record := RecordRegs.reset
    pktLen := 0
    respLen := 0
    lineLen := 0
    mem := Memory.reset
    rx := []
    tx := []
    diag := []
    hostQ := []
    agenda := []
    event := .none
    draw := 0 }

end Sys2Proof.Machine
end

