-- ==== Sys2Proof/Machine/Flags.lean ====
section
/-! DEFINITION. Every STATUS computation of the spec: the numbers of its codes, its word, the result classes, and the
updates an operation makes to it (10_state.md R22 to R26, 60_exceptions.md R240 to R244). -/
namespace Sys2Proof.Machine

/-- The number of a result code (10_state.md R23). -/
def ResultCode.code : ResultCode → BitVec 4
  | .none => 0
  | .ok => 1
  | .skip => 2
  | .ack => 3
  | .nack => 4
  | .undefined => 5
  | .formatError => 6
  | .hsTimeout => 7
  | .hsIoErr => 8
  | .linkError => 9
  | .lengthOverflow => 10
  | .noRecord => 11
  | .noPacket => 12
  | .notSynced => 13
  | .illegalOp => 14
  | .refused => 15

/-- The fatal codes are those from 4 to 14 (60_exceptions.md R240). -/
def ResultCode.isFatal (r : ResultCode) : Bool := decide (4 ≤ r.code.toNat) && decide (r.code.toNat ≤ 14)

/-- The number of a FMT_CAUSE value (10_state.md R24). -/
def FmtCause.code : FmtCause → BitVec 2
  | .none => 0
  | .missingMarker => 1
  | .badDigit => 2
  | .truncated => 3

/-- The number of a PHASE value (10_state.md R27). -/
def Phase.code : Phase → BitVec 2
  | .idle => 0
  | .sendWait => 1
  | .hsWait => 2
  | .hsRead => 3

/-- A one-bit field as a bit vector. -/
def bit (b : Bool) : BitVec 1 := BitVec.ofBool b

/-- STATUS as the 32-bit word the host reads, reserved bits 0 (10_state.md R22). -/
def Status.word (st : Status) : Word :=
  (0 : BitVec 2) ++ st.fmtPos ++ st.fault.code ++ (0 : BitVec 6) ++ bit st.pktValid ++ bit st.recValid ++
    bit st.linkSynced ++ bit st.aborted ++ st.fmtCause.code ++ st.result.code

/-- `STATUS.RESULT <- r` (10_state.md R23). -/
def State.finish (s : State) (r : ResultCode) : State :=
  { s with status := { s.status with result := r } }

/-- The fatal-result entry, `Fatal(c)` (60_exceptions.md R242): the one exception-like entry of the block. -/
def State.fatal (s : State) (c : ResultCode) : State :=
  { s with
    status := { s.status with
      result := c
      fault := if s.status.aborted then s.status.fault else c
      aborted := true }
    phase := .idle }

/-- `refuse` (60_exceptions.md R244): RESULT ← REFUSED and nothing else. -/
def State.refuse (s : State) : State := s.finish .refused

/-- `STATUS.LINK_SYNCED <- v` (10_state.md R26). -/
def State.setLinkSynced (s : State) (v : Bool) : State := { s with status := { s.status with linkSynced := v } }

/-- `STATUS.REC_VALID <- v` (10_state.md R26). -/
def State.setRecValid (s : State) (v : Bool) : State := { s with status := { s.status with recValid := v } }

/-- `STATUS.PKT_VALID <- v` (10_state.md R26). -/
def State.setPktValid (s : State) (v : Bool) : State := { s with status := { s.status with pktValid := v } }

/-- `STATUS.FMT_CAUSE <- c` and `STATUS.FMT_POS <- p` (10_state.md R24). -/
def State.setFormat (s : State) (c : FmtCause) (p : Nat) : State :=
  { s with status := { s.status with fmtCause := c, fmtPos := BitVec.ofNat 10 p } }

end Sys2Proof.Machine
end

