-- ==== Sys2Proof/Machine/Operands.lean ====
section
/-! DEFINITION. The operand forms: hex digits and pairs of a line (30_encoding.md R86 to R90, 41_hex_decoder.md R143),
the record a line holds, the length operand of a packet and the draw of a response read (43_transmitter.md R206). -/
namespace Sys2Proof.Machine

/-- Why and where a line's decoding fails: FMT_CAUSE and FMT_POS (10_state.md R24). -/
structure FormatErr where
  cause : FmtCause
  pos : Nat
  deriving DecidableEq, Repr

/-- The value of a hex digit, none for any other character (30_encoding.md R87); `lc` is CONFIG.HEX_LC. -/
def hexVal (lc : Bool) (c : Byte) : Option Byte :=
  if char0 ≤ c ∧ c ≤ char9 then some (c - char0)
  else if charUpperA ≤ c ∧ c ≤ charUpperF then some (c - charUpperA + 10)
  else if lc = true ∧ charLowerA ≤ c ∧ c ≤ charLowerF then some (c - charLowerA + 10)
  else none

/-- The character of a hex digit's value, upper case (30_encoding.md R87). -/
def hexChar (v : BitVec 4) : Byte :=
  if v ≤ 9 then char0 + v.setWidth 8 else charUpperA + (v.setWidth 8 - 10)

/-- The hex pair of a byte, high nibble first (20_memory.md R63). -/
def hexPair (b : Byte) : List Byte := [hexChar (b.extractLsb' 4 4), hexChar (b.extractLsb' 0 4)]

/-- CR or LF: a character that ends the line (30_encoding.md R90). -/
def isLineEnd (c : Byte) : Bool := decide (c = charCr) || decide (c = charLf)

/-- The characters of the line before its end LEND (30_encoding.md R90). -/
def untilLineEnd (cs : List Byte) : List Byte := cs.takeWhile (fun c => !isLineEnd c)

/-- The hex digit at character `k`: TRUNCATED at or past LEND, BAD_DIGIT where it is no hex digit
(41_hex_decoder.md R143). `cs` holds the characters before LEND. -/
def digitAt (lc : Bool) (cs : List Byte) (k : Nat) : Except FormatErr Byte :=
  match cs[k]? with
  | none => .error ⟨.truncated, k⟩
  | some c =>
    match hexVal lc c with
    | none => .error ⟨.badDigit, k⟩
    | some v => .ok v

/-- The hex pair at characters `j` and `j+1`, high nibble first, checked in index order (30_encoding.md R88,
41_hex_decoder.md R140 Pair). -/
def pairAt (lc : Bool) (cs : List Byte) (j : Nat) : Except FormatErr Byte := do
  let hi ← digitAt lc cs j
  let lo ← digitAt lc cs (j + 1)
  return 16 * hi + lo

/-- `n` hex pairs from character `j` on, in line order (41_hex_decoder.md R145). -/
def pairsAt (lc : Bool) (cs : List Byte) (j : Nat) : Nat → Except FormatErr (List Byte)
  | 0 => .ok []
  | n + 1 => do
    let b ← pairAt lc cs j
    let bs ← pairsAt lc cs (j + 2) n
    return b :: bs

/-- The fields of a line before its record type (30_encoding.md R86). -/
structure LineHeader where
  count : Byte
  addr : BitVec 16
  deriving DecidableEq, Repr

/-- The marker `:` at character 0; an empty line and any other character are MISSING_MARKER (41_hex_decoder.md R141). -/
def checkMarker (cs : List Byte) : Except FormatErr Unit :=
  match cs with
  | [] => .error ⟨.missingMarker, 0⟩
  | c :: _ => if c = charMarker then .ok () else .error ⟨.missingMarker, 0⟩

/-- The marker, byteCount and the address, in line order (41_hex_decoder.md R141, R142). -/
def readHeader (lc : Bool) (cs : List Byte) : Except FormatErr LineHeader := do
  checkMarker cs
  let cnt ← pairAt lc cs 1
  let ahi ← pairAt lc cs 3
  let alo ← pairAt lc cs 5
  return { count := cnt, addr := u16OfBytes ahi alo }

/-- The record type pair, at characters 7 and 8 (30_encoding.md R86). -/
def readType (lc : Bool) (cs : List Byte) : Except FormatErr Byte := pairAt lc cs 7

/-- The data bytes and the checksum byte of a Data line with `cnt` data bytes (41_hex_decoder.md R145, R146). -/
def readData (lc : Bool) (cs : List Byte) (cnt : Nat) : Except FormatErr (List Byte × Byte) := do
  let d ← pairsAt lc cs 9 cnt
  let cks ← pairAt lc cs (9 + 2 * cnt)
  return (d, cks)

/-- The number k of bytes one response read takes, from the free draw: some member of 1 .. min(255, avail), every member
for some draw (43_transmitter.md R206; log 7). -/
def drawCount (draw avail : Nat) : Nat := 1 + draw % min respMax avail

/-- The commands of the framer (42_packet_framer.md R171). -/
inductive Command where
  | erase | write | verify | run
  deriving DecidableEq, Repr

/-- `CmdByte`: the command byte before rotation (30_encoding.md R93). -/
def cmdByte : Command → Byte
  | .erase => cmdErase
  | .write => cmdWrite
  | .verify => cmdVerify
  | .run => cmdRun

/-- The bytes of the span as sent: rotated left by 3 for Verify, raw otherwise (42_packet_framer.md R176). -/
def spanByte (cmd : Command) (b : Byte) : Byte :=
  match cmd with
  | .verify => rotl3 b
  | .erase => b
  | .write => b
  | .run => b

/-- The span: command, four address bytes and body, as sent (42_packet_framer.md R172, R174, R176). -/
def packetSpan (cmd : Command) (addr : BitVec 16) (body : List Byte) : List Byte :=
  (cmdByte cmd :: 0x00 :: 0x00 :: hi8 addr :: lo8 addr :: body).map (spanByte cmd)

/-- The sum the checksum is computed from, over the length field and the span as sent (42_packet_framer.md R177). -/
def packetSum (cmd : Command) (len : Byte) (addr : BitVec 16) (body : List Byte) : Byte :=
  sum8 (len :: packetSpan cmd addr body)

/-- The packet: preamble, length field, span and checksum (30_encoding.md R92, 42_packet_framer.md R170). -/
def packetBytes (cmd : Command) (len : Byte) (addr : BitVec 16) (body : List Byte) : List Byte :=
  preamble0 :: preamble1 :: len :: (packetSpan cmd addr body ++ [neg8 (packetSum cmd len addr body)])

end Sys2Proof.Machine
end

