-- ==== Sys2Proof/Machine/Ops.lean ====
section
/-! DEFINITION. The named operations over the byte spaces, the streams and the whole state: reads and writes
(00_scope.md R9, 20_memory.md R60 to R66), request acceptance (60_exceptions.md R243) and reset (70_reset_and_hazards.md
R290). The fatal-result entry and refuse stand in Flags.lean. -/
namespace Sys2Proof.Machine

/-- What an unlisted address reads as: the reset contents of every space (10_state.md R40). -/
def unlistedByte : Byte := 0x00

/-- The size of a space (20_memory.md R60). -/
def Space.size : Space → Nat
  | .line => Config.maxLine
  | .ckb => ckbufLen
  | .recd => recMax
  | .pkt => pktMax
  | .resp => respMax
  | .did => devIdLen

/-- `n` characters fit in LINEBUF: `n ≤ MAX_LINE` (10_state.md R33), asked first of the least legal MAX_LINE, so that the
answer for a line the parser can accept does not wait on the open parameter (log 10). -/
def lineFits (n : Nat) : Bool := decide (n ≤ Config.leastMaxLine) || decide (n ≤ Config.maxLine)

/-- The cells of a space. -/
def Memory.cells (m : Memory) : Space → Cells
  | .line => m.line
  | .ckb => m.ckb
  | .recd => m.recd
  | .pkt => m.pkt
  | .resp => m.resp
  | .did => m.did

/-- One byte of a space. -/
def readCell : Cells → Nat → Byte
  | [], _ => unlistedByte
  | (k, v) :: rest, a => if k = a then v else readCell rest a

/-- A cell in front of others, or nothing where it would hold what an unlisted address reads as. -/
def consCell (a : Nat) (b : Byte) (rest : Cells) : Cells := if b = unlistedByte then rest else (a, b) :: rest

/-- Write one byte of a space, keeping the canonical form. -/
def writeCell : Cells → Nat → Byte → Cells
  | [], a, b => consCell a b []
  | (k, v) :: rest, a, b =>
    if k < a then (k, v) :: writeCell rest a b
    else if k = a then consCell a b rest
    else consCell a b ((k, v) :: rest)

/-- `MemRead(SPACE, a, n)`: `n` bytes in ascending order (00_scope.md R9). -/
def readBytes (c : Cells) (a : Nat) : Nat → List Byte
  | 0 => []
  | n + 1 => readCell c a :: readBytes c (a + 1) n

/-- `MemWrite(SPACE, a, n, v)`: the bytes in ascending order (00_scope.md R9). -/
def writeBytes (c : Cells) (a : Nat) : List Byte → Cells
  | [] => c
  | b :: bs => writeBytes (writeCell c a b) (a + 1) bs

/-- The canonical form from address `lo` on, below `size`. -/
def cellsWfFrom (lo size : Nat) : Cells → Bool
  | [] => true
  | (k, v) :: rest => decide (lo ≤ k) && decide (k < size) && decide (v ≠ unlistedByte) && cellsWfFrom (k + 1) size rest

/-- The canonical form of a space of a given size: addresses strictly rising and inside the space, no cell that holds
what an unlisted address reads as. -/
def cellsWf (size : Nat) (c : Cells) : Bool := cellsWfFrom 0 size c

/-- Every space is in its canonical form. -/
def Memory.wf (m : Memory) : Bool :=
  cellsWf Space.line.size m.line && cellsWf Space.ckb.size m.ckb && cellsWf Space.recd.size m.recd &&
    cellsWf Space.pkt.size m.pkt && cellsWf Space.resp.size m.resp && cellsWf Space.did.size m.did

/-- Write LINEBUF from `a` on. -/
def State.writeLine (s : State) (a : Nat) (bs : List Byte) : State :=
  { s with mem := { s.mem with line := writeBytes s.mem.line a bs } }

/-- Write CKBUF from `a` on. -/
def State.writeCkb (s : State) (a : Nat) (bs : List Byte) : State :=
  { s with mem := { s.mem with ckb := writeBytes s.mem.ckb a bs } }

/-- Write REC_DATA from address 0 on. -/
def State.writeRecd (s : State) (bs : List Byte) : State :=
  { s with mem := { s.mem with recd := writeBytes s.mem.recd 0 bs } }

/-- Write PKTBUF from `a` on. -/
def State.writePkt (s : State) (a : Nat) (bs : List Byte) : State :=
  { s with mem := { s.mem with pkt := writeBytes s.mem.pkt a bs } }

/-- Write RESPBUF from address 0 on. -/
def State.writeResp (s : State) (bs : List Byte) : State :=
  { s with mem := { s.mem with resp := writeBytes s.mem.resp 0 bs } }

/-- Write DEVID from address 0 on. -/
def State.writeDid (s : State) (bs : List Byte) : State :=
  { s with mem := { s.mem with did := writeBytes s.mem.did 0 bs } }

/-- `CKACC <- v` (10_state.md R28). -/
def State.setCkacc (s : State) (v : Byte) : State := { s with ckacc := v }

/-- `PHASE <- p` (00_scope.md R9). -/
def State.setPhase (s : State) (p : Phase) : State := { s with phase := p }

/-- `Tx(bs)`: append to TX in order (00_scope.md R9). -/
def State.transmit (s : State) (bs : List Byte) : State := { s with tx := s.tx ++ bs }

/-- `Diag(e)` (00_scope.md R9). -/
def State.diagnose (s : State) (e : DiagEvent) : State := { s with diag := s.diag ++ [e] }

/-- `RxFlush()` (00_scope.md R9). -/
def State.rxFlush (s : State) : State := { s with rx := [] }

/-- What is left in RX after `RxTake(k)`; the bytes taken are `s.rx.take k` (00_scope.md R9). -/
def State.rxDrop (s : State) (k : Nat) : State := { s with rx := s.rx.drop k }

/-- The inputs of the step being taken (log 6). -/
def State.sample (s : State) (ev : LinkEvent) (draw : Nat) : State := { s with event := ev, draw := draw }

/-- Request acceptance of a word that has a row (60_exceptions.md R243): no step while PHASE ≠ IDLE, refuse while
ABORTED = 1, otherwise the operation's own rule. -/
def State.accept (s : State) (run : State → StepResult) : StepResult :=
  if s.phase ≠ .idle then .next s
  else if s.status.aborted = true then .next s.refuse
  else run s

/-- Reset (70_reset_and_hazards.md R290, R291): every piece of state at its value of 10_state.md R40. CONFIG, TX and DIAG
keep their contents; what the other agents have still to do is theirs, not the block's (log 20). -/
def State.applyReset (s : State) : State :=
  { State.reset with
    config := s.config
    tx := s.tx
    diag := s.diag
    hostQ := s.hostQ
    agenda := s.agenda
    event := s.event
    draw := s.draw }

end Sys2Proof.Machine
end

