-- ==== Sys2Proof/Machine/Checksum.lean ====
section
/-! DEFINITION. The checksum generator: CK_CLR, CK_ADD, CKSUM and the output CK_OUT (40_checksum.md). -/
namespace Sys2Proof.Machine

/-- CK_CLR (40_checksum.md R122). -/
def execCkClr (s : State) : StepResult := s.accept fun s => .next ((s.setCkacc 0x00).finish .ok)

/-- CK_ADD (40_checksum.md R123). -/
def execCkAdd (imm8 : BitVec 8) (s : State) : StepResult :=
  s.accept fun s => .next ((s.setCkacc (s.ckacc + imm8)).finish .ok)

/-- CKSUM (40_checksum.md R125). N9 > 256 is an illegal word (30_encoding.md R82), which no decoding yields (log 24). -/
def execCksum (n9 : BitVec 9) (s : State) : StepResult :=
  s.accept fun s =>
    if n9.toNat > ckbufLen then .next (s.fatal .illegalOp)
    else .next ((s.setCkacc (sumFrom 0x00 (readBytes s.mem.ckb 0 n9.toNat))).finish .ok)

/-- CK_OUT, the generator's combinational output (40_checksum.md R124). -/
def State.ckOut (s : State) : Byte := neg8 s.ckacc

end Sys2Proof.Machine
end

