-- ==== Sys2Proof/Machine/Framer.lean ====
section
/-! DEFINITION. The packet framer (42_packet_framer.md): the four BUILD operations over the shared procedure Frame, and
the packet rows of the opcode table, the bytes Frame stores at a fixed place of PKTBUF (log 1). -/
namespace Sys2Proof.Machine

/-- `PKTLEN <- n` (42_packet_framer.md R179). -/
def State.setPktLen (s : State) (n : Nat) : State := { s with pktLen := BitVec.ofNat 9 n }

/-- `Frame(cmd, L, addr, body)` (42_packet_framer.md R170). -/
def State.frame (s : State) (cmd : Command) (len : Byte) (addr : BitVec 16) (body : List Byte) : State :=
  ((((s.writePkt 0 (packetBytes cmd len addr body)).setPktLen (len.toNat + packetOverhead)).setCkacc
    (packetSum cmd len addr body)).setPktValid true).finish .ok

/-- A BUILD_W or BUILD_V that writes no packet: PKT_VALID ← 0 and the fatal result (42_packet_framer.md R180, R181). -/
def State.buildFault (s : State) (c : ResultCode) : State := (s.setPktValid false).fatal c

/-- REC_DATA[0 .. REC_COUNT−1] (42_packet_framer.md R175). -/
def State.recordData (s : State) : List Byte := readBytes s.mem.recd 0 s.record.count.toNat

/-- Build a packet from the record: NO_RECORD, then LENGTH_OVERFLOW, then Frame (42_packet_framer.md R180, R181, R183,
R184). -/
def State.frameRecord (s : State) (cmd : Command) : State :=
  if s.status.recValid = false then s.buildFault .noRecord
  else if s.record.count.toNat > buildMaxCount then s.buildFault .lengthOverflow
  else s.frame cmd (s.record.count + lengthOffset) s.record.addr s.recordData

/-- BUILD_E (42_packet_framer.md R182). -/
def execBuildE (s : State) : StepResult := s.accept fun s => .next (s.frame .erase eraseLength 0x0000 [massErase])

/-- BUILD_W (42_packet_framer.md R183). -/
def execBuildW (s : State) : StepResult := s.accept fun s => .next (s.frameRecord .write)

/-- BUILD_V (42_packet_framer.md R184). -/
def execBuildV (s : State) : StepResult := s.accept fun s => .next (s.frameRecord .verify)

/-- BUILD_R (42_packet_framer.md R185). -/
def execBuildR (s : State) : StepResult := s.accept fun s => .next (s.frame .run runLength 0x0000 [])

/-- Frame's store of the byte a packet row names, at its place in PKTBUF (42_packet_framer.md R170; log 1). -/
def State.storePacketByte (s : State) (a : Nat) (b : Byte) : StepResult := s.accept fun s => .next (s.writePkt a [b])

/-- PKT_PREAMBLE0: packet byte 0 ← 0x07 (30_encoding.md R92, R94; log 1). -/
def execPktPreamble0 (s : State) : StepResult := s.storePacketByte 0 preamble0

/-- PKT_PREAMBLE1: packet byte 1 ← 0x0E (30_encoding.md R92, R94; log 1). -/
def execPktPreamble1 (s : State) : StepResult := s.storePacketByte 1 preamble1

/-- PKT_CMD_ERASE: packet byte 3 ← 0x45 (30_encoding.md R92, R93; log 1). -/
def execPktCmdErase (s : State) : StepResult := s.storePacketByte 3 (spanByte .erase (cmdByte .erase))

/-- PKT_CMD_WRITE: packet byte 3 ← 0x57 (30_encoding.md R92, R93; log 1). -/
def execPktCmdWrite (s : State) : StepResult := s.storePacketByte 3 (spanByte .write (cmdByte .write))

/-- PKT_CMD_VERIFY: packet byte 3 ← rotl3(0x56) = 0xB2 (30_encoding.md R92, R93; log 1). -/
def execPktCmdVerify (s : State) : StepResult := s.storePacketByte 3 (spanByte .verify (cmdByte .verify))

/-- PKT_CMD_RUN: packet byte 3 ← 0x52 (30_encoding.md R92, R93; log 1). -/
def execPktCmdRun (s : State) : StepResult := s.storePacketByte 3 (spanByte .run (cmdByte .run))

end Sys2Proof.Machine
end

