-- ==== Sys2Proof/Machine/HexDecoder.lean ====
section
/-! DEFINITION. The Intel HEX record parser (41_hex_decoder.md): HEXDEC, and the two record-type rows of the opcode
table, which are what HEXDEC does once it has read the record type pair (log 2). -/
namespace Sys2Proof.Machine

/-- LINEBUF[0 .. LINELEN−1] (10_state.md R33). -/
def State.lineChars (s : State) : List Byte := readBytes s.mem.line 0 s.lineLen

/-- The characters before the line's end LEND (30_encoding.md R90). -/
def State.fieldChars (s : State) : List Byte := untilLineEnd s.lineChars

/-- FormatError(cause, pos) (41_hex_decoder.md R140, R150). -/
def State.formatError (s : State) (e : FormatErr) : State :=
  ((s.setRecValid false).setFormat e.cause e.pos).fatal .formatError

/-- `REC_COUNT`, `REC_ADDR` and `REC_TYPE` from the line's fields (41_hex_decoder.md R148, R149). -/
def State.setRecordFields (s : State) (h : LineHeader) (t : Byte) : State :=
  { s with record := { s.record with count := h.count, addr := h.addr, type := t } }

/-- `REC_CKS <- c` (41_hex_decoder.md R146). -/
def State.setRecordCks (s : State) (c : Byte) : State := { s with record := { s.record with cks := c } }

/-- A Data line after its record type pair: the data and checksum pairs, then OK (41_hex_decoder.md R145, R146, R148). -/
def State.dataRecord (s : State) (h : LineHeader) : State :=
  match readData s.config.hexLc s.fieldChars h.count.toNat with
  | .error e => s.formatError e
  | .ok (d, cks) =>
    ((((s.setRecordFields h typeData).writeRecd d).setRecordCks cks).setRecValid true).finish .ok

/-- A line of another type after its record type pair: SKIP (41_hex_decoder.md R144, R149). -/
def State.skipRecord (s : State) (h : LineHeader) (t : Byte) : State :=
  (((s.setRecordFields h t).setRecValid false).diagnose (.skip t s.lineChars)).finish .skip

/-- The marker and the fields before the record type, then `run` with them; a failing character is FORMAT_ERROR
(41_hex_decoder.md R141 to R143). LINELEN > MAX_LINE, which no run reaches, is outside LINE (20_memory.md R61; log 13). -/
def State.onLine (s : State) (run : State → LineHeader → State) : StepResult :=
  if lineFits s.lineLen = false then .fault (.outsideSpace .line Config.maxLine)
  else
    match readHeader s.config.hexLc s.fieldChars with
    | .error e => .next (s.formatError e)
    | .ok h => .next (run s h)

/-- What HEXDEC does from the record type pair on (41_hex_decoder.md R144, R148). -/
def State.decodeTyped (s : State) (h : LineHeader) : State :=
  match readType s.config.hexLc s.fieldChars with
  | .error e => s.formatError e
  | .ok t => if t = typeData then s.dataRecord h else s.skipRecord h t

/-- HEXDEC (41_hex_decoder.md R140). -/
def execHexdec (s : State) : StepResult := s.accept fun s => s.onLine State.decodeTyped

/-- HEX_TYPE_DATA: HEXDEC on the line in LINEBUF once its record type pair has been read as 0x00
(41_hex_decoder.md R148; log 2). -/
def execHexTypeData (s : State) : StepResult := s.accept fun s => s.onLine State.dataRecord

/-- HEX_TYPE_OTHER: HEXDEC on the line in LINEBUF once its record type pair has been read as `t` ≠ 0x00
(41_hex_decoder.md R144, R149; log 2). -/
def execHexTypeOther (t : Byte) (s : State) : StepResult :=
  s.accept fun s => s.onLine fun s h => s.skipRecord h t

end Sys2Proof.Machine
end

