-- ==== Sys2Proof/Machine/Transmitter.lean ====
section
/-! DEFINITION. The serial packet transmitter (43_transmitter.md): SEND and SYNC, their steps in the wait phases, and
the table's wire rows they use: the sync byte, and the three classes of response byte 0 (logs 3, 4). -/
namespace Sys2Proof.Machine

/-- The transmit step of SEND: LINK_ERROR with nothing sent on IOERR, else the whole packet on TX and SEND_WAIT
(43_transmitter.md R202, R204, R209). PKTLEN > 259, which no run reaches, is outside PKT (20_memory.md R61; log 13). -/
def State.sendPacket (s : State) : StepResult :=
  if s.event = .ioErr then .next (s.fatal .linkError)
  else if s.pktLen.toNat > pktMax then .fault (.outsideSpace .pkt pktMax)
  else .next ((s.transmit (readBytes s.mem.pkt 0 s.pktLen.toNat)).setPhase .sendWait)

/-- SEND, its issue step: NOT_SYNCED, NO_PACKET, then PKT_VALID ← 0 and the transmit step (43_transmitter.md R202,
R203). -/
def execSend (s : State) : StepResult :=
  s.accept fun s =>
    if s.status.linkSynced = false then .next (s.fatal .notSynced)
    else if s.status.pktValid = false then .next (s.fatal .noPacket)
    else (s.setPktValid false).sendPacket

/-- The one read of SEND with response byte 0 = `b` already taken from the head of RX: k − 1 more bytes, all of them to
RESPBUF, RESPLEN ← k, PHASE ← IDLE (43_transmitter.md R202, R206). -/
def State.readResponse (s : State) (b : Byte) : State :=
  let k := drawCount s.draw (s.rx.length + 1)
  let t := ((s.rxDrop (k - 1)).writeResp (b :: s.rx.take (k - 1))).setPhase .idle
  { t with respLen := BitVec.ofNat 8 k }

/-- A response row: in SEND_WAIT the read with byte 0 = `b`, then what its class gives. In any other phase no response
is being read, and the byte stays at the head of RX (10_state.md R37; log 3). -/
def State.onResponse (s : State) (b : Byte) (conclude : State → State) : StepResult :=
  if s.phase = .sendWait then .next (conclude (s.readResponse b))
  else .next { s with rx := b :: s.rx }

/-- RESP_ACK: response byte 0 = 0x06 gives RESULT = ACK (43_transmitter.md R207). -/
def execRespAck (s : State) : StepResult := s.onResponse ackByte fun t => t.finish .ack

/-- RESP_NACK: response byte 0 = 0x07 raises Fatal(NACK) (43_transmitter.md R207). -/
def execRespNack (s : State) : StepResult := s.onResponse nackByte fun t => t.fatal .nack

/-- RESP_UNDEFINED: any other response byte 0 raises Fatal(UNDEFINED) (43_transmitter.md R207). -/
def execRespUndefined (b : Byte) (s : State) : StepResult := s.onResponse b fun t => t.fatal .undefined

/-- The transmit step of SYNC: LINK_ERROR with nothing sent on IOERR, else 0x08 on TX and HS_WAIT (43_transmitter.md
R211, R212). -/
def State.sendSyncByte (s : State) : StepResult :=
  if s.event = .ioErr then .next (s.fatal .linkError)
  else .next ((s.transmit [syncChar]).setPhase .hsWait)

/-- SYNC, its issue step: LINK_SYNCED ← 0, RX flushed, then the transmit step (43_transmitter.md R211, R212). -/
def execSync (s : State) : StepResult := s.accept fun s => (s.setLinkSynced false).rxFlush.sendSyncByte

/-- SYNC_BYTE: SYNC's transmit of the byte 0x08 (30_encoding.md R96, 43_transmitter.md R212; log 4). -/
def execSyncByte (s : State) : StepResult := s.accept State.sendSyncByte

/-- SYNC's readiness step in HS_WAIT: exactly one of readiness, TIMEOUT while RX is empty, and IOERR; where readiness and
IOERR are both enabled the environment's signal decides (43_transmitter.md R213 to R215, 60_exceptions.md R248). -/
def State.syncReady (s : State) : State :=
  if s.event = .ioErr then s.fatal .hsIoErr
  else if s.rx ≠ [] then s.setPhase .hsRead
  else if s.event = .timeout then s.fatal .hsTimeout
  else s

/-- SYNC's completion with the 24 bytes `id` (43_transmitter.md R211, R216, R217). -/
def State.syncComplete (s : State) (id : List Byte) : State :=
  ((((s.rxDrop devIdLen).writeDid id).setLinkSynced true).diagnose (.deviceId id)).finish .ok |>.setPhase .idle

/-- SYNC's read step in HS_READ: LINK_ERROR on IOERR, no step while RX holds fewer than 24 bytes (43_transmitter.md R216;
log 8). -/
def State.syncRead (s : State) : State :=
  if s.event = .ioErr then s.fatal .linkError
  else if s.rx.length < devIdLen then s
  else s.syncComplete (s.rx.take devIdLen)

end Sys2Proof.Machine
end

