-- ==== Sys2Proof/Machine/Dispatch.lean ====
section
/-! DEFINITION. The meaning of each instruction: one arm per row of the opcode table. -/
namespace Sys2Proof.Machine

/-- The meaning of an instruction. -/
def exec (i : Instr) (s : State) : Host.Outcome State Fault Refusal :=
  match i with
  | .ckClr => Sys2Proof.Machine.execCkClr s
  | .ckAdd imm8 => Sys2Proof.Machine.execCkAdd imm8 s
  | .cksum n9 => Sys2Proof.Machine.execCksum n9 s
  | .hexdec => Sys2Proof.Machine.execHexdec s
  | .buildE => Sys2Proof.Machine.execBuildE s
  | .buildW => Sys2Proof.Machine.execBuildW s
  | .buildV => Sys2Proof.Machine.execBuildV s
  | .buildR => Sys2Proof.Machine.execBuildR s
  | .send => Sys2Proof.Machine.execSend s
  | .sync => Sys2Proof.Machine.execSync s
  | .pktCmdErase => Sys2Proof.Machine.execPktCmdErase s
  | .pktCmdWrite => Sys2Proof.Machine.execPktCmdWrite s
  | .pktCmdVerify => Sys2Proof.Machine.execPktCmdVerify s
  | .pktCmdRun => Sys2Proof.Machine.execPktCmdRun s
  | .pktPreamble0 => Sys2Proof.Machine.execPktPreamble0 s
  | .pktPreamble1 => Sys2Proof.Machine.execPktPreamble1 s
  | .syncByte => Sys2Proof.Machine.execSyncByte s
  | .respAck => Sys2Proof.Machine.execRespAck s
  | .respNack => Sys2Proof.Machine.execRespNack s
  | .respUndefined b => Sys2Proof.Machine.execRespUndefined b s
  | .hexTypeData => Sys2Proof.Machine.execHexTypeData s
  | .hexTypeOther t => Sys2Proof.Machine.execHexTypeOther t s

end Sys2Proof.Machine
end

