-- ==== Sys2Proof/Machine/HostPort.lean ====
section
/-! DEFINITION. The host's side of the block (00_scope.md R4, 60_exceptions.md R243, R260): a request on the operation
port, and the writes to LINEBUF, LINELEN and CKBUF. -/
namespace Sys2Proof.Machine

/-- A word that matches no row: refused while ABORTED = 1, else Fatal(ILLEGAL_OP) (60_exceptions.md R243, R254). -/
def State.illegalWord (s : State) : StepResult := s.accept fun s => .next (s.fatal .illegalOp)

/-- `Accept(word)` (60_exceptions.md R243): the word is decoded and its instruction run. -/
def State.request (s : State) (w : Word) : StepResult :=
  match decodeRequest w with
  | .error _ => s.illegalWord
  | .ok i => exec i s

/-- `HOST LINE`: the characters to LINEBUF[0..], LINELEN their count (30_encoding.md R85). A line longer than MAX_LINE is
outside LINE (log 13). -/
def State.hostLine (s : State) (cs : List Byte) : StepResult :=
  if lineFits cs.length = false then .fault (.outsideSpace .line Space.line.size)
  else .next { s.writeLine 0 cs with lineLen := cs.length }

/-- One byte of LINEBUF (20_memory.md R64). -/
def State.hostLineByte (s : State) (a : Nat) (b : Byte) : StepResult :=
  if lineFits (a + 1) = false then .fault (.outsideSpace .line a) else .next (s.writeLine a [b])

/-- LINELEN, at most MAX_LINE (10_state.md R33). -/
def State.hostLineLen (s : State) (n : Nat) : StepResult :=
  if lineFits n = false then .fault (.outsideSpace .line n) else .next { s with lineLen := n }

/-- `HOST CKBUF`, from address `a` on (30_encoding.md R85; log 25). -/
def State.hostCkbuf (s : State) (a : Nat) (bs : List Byte) : StepResult :=
  if a + bs.length > Space.ckb.size then .fault (.outsideSpace .ckb (a + bs.length)) else .next (s.writeCkb a bs)

/-- The host's action, in PHASE = IDLE (60_exceptions.md R260). -/
def State.hostAct (s : State) (a : HostAct) : StepResult :=
  match a with
  | .request w => s.request w
  | .line cs => s.hostLine cs
  | .lineByte a b => s.hostLineByte a b
  | .lineLen n => s.hostLineLen n
  | .ckbuf a bs => s.hostCkbuf a bs

end Sys2Proof.Machine
end

