-- ==== Sys2Proof/Machine/Turn.lean ====
section
/-! DEFINITION. The moves of the agents (00_scope.md R3, R5; 70_reset_and_hazards.md R299, R304): the host's next
action, the block's step of a wait phase, the device's bytes, and reset; and how a word or wire byte is placed so that
the next step runs it (log 19). -/
namespace Sys2Proof.Machine

/-- The host's turn: its oldest action, where PHASE = IDLE; otherwise the action waits (60_exceptions.md R243,
70_reset_and_hazards.md R299; log 14). -/
def State.hostTurn (s : State) (ev : LinkEvent) : StepResult :=
  if s.phase ≠ .idle then .next s
  else
    match s.hostQ with
    | [] => .next s
    | a :: rest => ({ s with hostQ := rest }.sample ev s.draw).hostAct a

/-- SEND's response step in SEND_WAIT: LINK_ERROR with no byte taken on IOERR, no step while RX is empty; otherwise byte
0 is taken from the head of RX and the instruction it decodes to is run (43_transmitter.md R202, R205, R209; logs 3, 8). -/
def State.sendResponse (s : State) : StepResult :=
  if s.event = .ioErr then .next (s.fatal .linkError)
  else
    match s.rx with
    | [] => .next s
    | b :: rest => exec (decodeResponse b) { s with rx := rest }

/-- The block's own turn: the step of its wait phase; in IDLE it has none (10_state.md R27). -/
def State.blockTurn (s : State) (ev : LinkEvent) (draw : Nat) : StepResult :=
  match s.phase with
  | .idle => .next s
  | .sendWait => (s.sample ev draw).sendResponse
  | .hsWait => .next (s.sample ev draw).syncReady
  | .hsRead => .next (s.sample ev draw).syncRead

/-- The device appends bytes to the tail of RX (10_state.md R35). -/
def State.deviceTurn (s : State) (bs : List Byte) : State := { s with rx := s.rx ++ bs }

/-- One turn. -/
def State.turn (s : State) (t : Turn) : StepResult :=
  match t with
  | .host ev => s.hostTurn ev
  | .block ev draw => s.blockTurn ev draw
  | .device bs => .next (s.deviceTurn bs)
  | .reset => .next s.applyReset

/-- The oldest turn of the agenda; with an empty agenda no agent moves and nothing changes (log 8). -/
def State.nextTurn (s : State) : StepResult :=
  match s.agenda with
  | [] => .next s
  | t :: rest => { s with agenda := rest }.turn t

/-- A request word on the operation port of an idle block, with the host's turn next. -/
def State.placeRequest (s : State) (w : Word) : State :=
  { s with phase := .idle, hostQ := .request w :: s.hostQ, agenda := .host .none :: s.agenda }

/-- A response byte at the head of RX of a block in SEND_WAIT, with the block's turn next. -/
def State.placeResponse (s : State) (b : Byte) : State :=
  { s with phase := .sendWait, rx := b :: s.rx, agenda := .block .none 0 :: s.agenda }

/-- A HEX line without data bytes and with record type `t` in LINEBUF, and HEXDEC requested. -/
def State.placeRecordType (s : State) (t : Byte) : State :=
  let cs := charMarker :: (hexPair 0 ++ hexPair 0 ++ hexPair 0 ++ hexPair t ++ hexPair 0)
  { s.writeLine 0 cs with lineLen := cs.length }.placeRequest (encode .hexdec).bits

/-- An instruction placed so that the next step runs it: an operation on the port, a response byte in RX, a record type
in LINEBUF; a byte that the block only writes, by the operation that writes it (log 19). -/
def State.placeInstr (s : State) (i : Instr) : State :=
  match i with
  | .ckClr => s.placeRequest (encode i).bits
  | .ckAdd _ => s.placeRequest (encode i).bits
  | .cksum _ => s.placeRequest (encode i).bits
  | .hexdec => s.placeRequest (encode i).bits
  | .buildE => s.placeRequest (encode i).bits
  | .buildW => s.placeRequest (encode i).bits
  | .buildV => s.placeRequest (encode i).bits
  | .buildR => s.placeRequest (encode i).bits
  | .send => s.placeRequest (encode i).bits
  | .sync => s.placeRequest (encode i).bits
  | .pktCmdErase => s.placeRequest (encode .buildE).bits
  | .pktCmdWrite => (s.setRecValid true).placeRequest (encode .buildW).bits
  | .pktCmdVerify => (s.setRecValid true).placeRequest (encode .buildV).bits
  | .pktCmdRun => s.placeRequest (encode .buildR).bits
  | .pktPreamble0 => s.placeRequest (encode .buildR).bits
  | .pktPreamble1 => s.placeRequest (encode .buildR).bits
  | .syncByte => s.placeRequest (encode .sync).bits
  | .respAck => s.placeResponse ackByte
  | .respNack => s.placeResponse nackByte
  | .respUndefined b => s.placeResponse b
  | .hexTypeData => s.placeRecordType typeData
  | .hexTypeOther t => s.placeRecordType t

/-- A table word placed so that the next step runs it; a word of 32 bits that is no instruction goes to the port too. -/
def State.placeWord (s : State) (nbits w : Nat) : State :=
  match decodeTableWord nbits w with
  | some i => s.placeInstr i
  | none => s.placeRequest (BitVec.ofNat 32 w)

end Sys2Proof.Machine
end

