-- ==== Sys2Proof/Machine/Step.lean ====
section
/-! DEFINITION. One step of the machine: the next turn of its agenda (log 6). -/
namespace Sys2Proof.Machine

/-- One step: the oldest turn of the agenda. -/
def step (s : State) : Host.Outcome State Fault Refusal := s.nextTurn

/-- `s` with the instruction of a table word placed so that the very next step runs it (log 19). -/
def State.withFetchWord (s : State) (nbits w : Nat) : State := s.placeWord nbits w

end Sys2Proof.Machine
end

