-- ==== Sys2Proof/Machine/HostView.lean ====
section
/-! DEFINITION. The host's read view (00_scope.md R4, 10_state.md R38, 60_exceptions.md R253): what each register and
buffer reads as. Reading has no effect (20_memory.md R66), so these are functions of the state and no turns. The host
has no view of RX (10_state.md R38); TX and DIAG are read as the fields `tx` and `diag`. -/
namespace Sys2Proof.Machine

/-- CONFIG as the 32-bit word the host reads, reserved bits 0 (10_state.md R21). -/
def ConfigReg.word (c : ConfigReg) : Word := (0 : BitVec 30) ++ bit c.hexLc ++ bit c.baudSel

/-- The line rate in bits per second (10_state.md R21, 43_transmitter.md R200). -/
def State.baudRate (s : State) : Nat := if s.config.baudSel then baudAlternate else baudDefault

/-- The handshake timeout is armed from the sync byte until RX is non-empty or SYNC ends (60_exceptions.md R251; log 18). -/
def State.timerArmed (s : State) : Bool := decide (s.phase = .hsWait) && s.rx.isEmpty

/-- The registers the host reads (10_state.md R38); CK_OUT is the generator's output (40_checksum.md R124). -/
inductive HostReg where
  | config | status | phase | ckacc | ckOut | recCount | recAddr | recType | recCks | pktLen | respLen | lineLen
  deriving DecidableEq, Repr

/-- A register as the host reads it, zero-extended to a word (10_state.md R38; LINELEN has no width, log 15). -/
def State.hostRead (s : State) (r : HostReg) : Word :=
  match r with
  | .config => s.config.word
  | .status => s.status.word
  | .phase => s.phase.code.setWidth 32
  | .ckacc => s.ckacc.setWidth 32
  | .ckOut => s.ckOut.setWidth 32
  | .recCount => s.record.count.setWidth 32
  | .recAddr => s.record.addr.setWidth 32
  | .recType => s.record.type.setWidth 32
  | .recCks => s.record.cks.setWidth 32
  | .pktLen => s.pktLen.setWidth 32
  | .respLen => s.respLen.setWidth 32
  | .lineLen => BitVec.ofNat 32 s.lineLen

/-- One byte of a space as the host reads it; no address outside the space exists (20_memory.md R60; log 13). -/
def State.hostReadByte (s : State) (sp : Space) (a : Nat) : Except Fault Byte :=
  if a < sp.size then .ok (readCell (s.mem.cells sp) a) else .error (.outsideSpace sp a)

end Sys2Proof.Machine
end

