-- ==== Sys2Proof/Machine/Run.lean ====
section
/-! DEFINITION. Infinite runs of the machine, and the fairness the spec assumes of them (43_transmitter.md R213,
70_reset_and_hazards.md R302 to R304). A run stands beside State: its steps are those of `step`, and what the agents do at
each step is a free schedule. -/
namespace Sys2Proof.Machine

/-- A run without end: before step `n` the host queues the actions `acts n`, and `turns n` is the turn of that step. -/
structure Run where
  /-- The turn of each step. -/
  turns : Nat → Turn
  /-- What the host queues before each step. -/
  acts : Nat → List HostAct
  /-- The state before each step. -/
  state : Nat → State
  /-- Each state follows from the one before by the machine's step. -/
  steps : ∀ n, step { state n with agenda := [turns n], hostQ := (state n).hostQ ++ acts n } = .next (state (n + 1))

/-- A turn in which the environment signals TIMEOUT to the waiting block. -/
def Turn.isTimeout : Turn → Bool
  | .block ev _ => decide (ev = .timeout)
  | .host _ => false
  | .device _ => false
  | .reset => false

/-- A turn of the block. -/
def Turn.isBlock : Turn → Bool
  | .block _ _ => true
  | .host _ => false
  | .device _ => false
  | .reset => false

/-- Weak fairness of TIMEOUT: where it stays enabled from some step on, it eventually occurs (43_transmitter.md R213,
70_reset_and_hazards.md R303; 92_eei_decisions.md D27). It is enabled exactly while the handshake timer is armed
(60_exceptions.md R251). -/
def Run.timeoutFair (r : Run) : Prop :=
  ∀ n, (∀ m, n ≤ m → (r.state m).timerArmed = true) → ∃ m, n ≤ m ∧ (r.turns m).isTimeout = true

/-- The block never stops stepping, so that a step it has is eventually taken (00_scope.md R3: each agent steps on its own;
log 9). Of the host and the device nothing is assumed (70_reset_and_hazards.md R302). -/
def Run.blockMoves (r : Run) : Prop := ∀ n, ∃ m, n ≤ m ∧ (r.turns m).isBlock = true

/-- The runs the spec admits: those fair to TIMEOUT and to the block. -/
def Run.fair (r : Run) : Prop := r.timeoutFair ∧ r.blockMoves

/-- The block has no step but on a device byte, an I/O error or reset: SEND_WAIT with RX empty, or HS_READ with fewer bytes
than a device ID has (43_transmitter.md R205, R216). -/
def State.starved (s : State) : Prop :=
  (s.phase = .sendWait ∧ s.rx = []) ∨ (s.phase = .hsRead ∧ s.rx.length < devIdLen)

/-- A run hangs from step `n` on: the block stays in its wait without a step (70_reset_and_hazards.md R302, R304). -/
def Run.hangsFrom (r : Run) (n : Nat) : Prop :=
  ∀ m, n ≤ m → (r.state m).starved ∧ (r.state m).phase = (r.state n).phase

end Sys2Proof.Machine
end

