-- ==== Sys2Proof/Machine/Session.lean ====
section
/-! DEFINITION. The host contract (60_exceptions.md R260 to R268): a host that sequences one flash session. It is no
part of the block; it gives the block its actions through hostQ and waits for PHASE = IDLE before each (log 26). -/
namespace Sys2Proof.Machine

/-- The requested set still pending, a subset of Erase, Write and Verify (60_exceptions.md R261). -/
structure Pending where
  erase : Bool
  write : Bool
  verify : Bool
  deriving DecidableEq, Repr

/-- Which walk over the file is being made (60_exceptions.md R264, R265). -/
inductive Pass where
  | write | verify
  deriving DecidableEq, Repr

/-- What the host does next in a session. -/
inductive Stage where
  /-- Reset the block (R262, step 1). -/
  | powerOn
  /-- Issue SYNC (R262, step 2). -/
  | handshake
  /-- Read the result of SYNC (R262, step 3). -/
  | handshakeResult
  /-- Issue BUILD_E (R263). -/
  | eraseBuild
  /-- Issue SEND for the Erase packet (R263). -/
  | eraseSend
  /-- Read the result of the Erase packet (R263). -/
  | eraseResult
  /-- Open the file, if a walk is requested (R264, R267). -/
  | openFile
  /-- Write the next line to LINEBUF, or end the walk (R264). -/
  | lineLoad (pass : Pass) (rest : List (List Byte))
  /-- Issue HEXDEC (R264). -/
  | lineDecode (pass : Pass) (rest : List (List Byte))
  /-- Read the result of HEXDEC (R264). -/
  | lineDecoded (pass : Pass) (rest : List (List Byte))
  /-- Issue SEND for the line's packet (R264). -/
  | lineSend (pass : Pass) (rest : List (List Byte))
  /-- Read the result of the line's packet (R264). -/
  | lineResult (pass : Pass) (rest : List (List Byte))
  /-- Issue BUILD_R (R266). -/
  | runBuild
  /-- Issue SEND for the Run packet (R266). -/
  | runSend
  /-- Read the result of the Run packet (R266). -/
  | runResult
  /-- Cleanup: the session has ended, with or without success (R268). -/
  | cleanup (success : Bool)
  deriving DecidableEq, Repr

/-- A host's session: its pending set, the lines of the HEX file (none where it cannot be opened, R267) and its stage. -/
structure Session where
  pending : Pending
  file : Option (List (List Byte))
  stage : Stage
  deriving DecidableEq, Repr

/-- What the host gives the block at one of its decisions. -/
inductive HostMove where
  /-- Nothing: the host only goes on to its next stage. -/
  | stay
  /-- Assert reset. -/
  | reset
  /-- An action on the block's ports. -/
  | act (a : HostAct)
  deriving DecidableEq, Repr

/-- The host issues the request word of an operation. -/
def HostMove.issue (i : Instr) : HostMove := .act (.request (encode i).bits)

/-- The BUILD operation of a walk (60_exceptions.md R264, R265). -/
def Pass.build : Pass → Instr
  | .write => .buildW
  | .verify => .buildV

/-- A walk that has ended leaves the pending set (60_exceptions.md R261, R264, R265). -/
def Pending.remove (p : Pending) (pass : Pass) : Pending :=
  match pass with
  | .write => { p with write := false }
  | .verify => { p with verify := false }

/-- The stage after the walks done so far: the Write walk first, then Verify, then Run (60_exceptions.md R265, R266). -/
def nextWalk (p : Pending) (lines : List (List Byte)) : Stage :=
  if p.write then .lineLoad .write lines
  else if p.verify then .lineLoad .verify lines
  else .runBuild

/-- The stage that opens the file; without a walk requested the host goes on to Run (60_exceptions.md R264, R266, R267). -/
def openStage (p : Pending) (file : Option (List (List Byte))) : Stage :=
  if p.write || p.verify then
    match file with
    | none => .cleanup false
    | some lines => nextWalk p lines
  else .runBuild

/-- The host at `stage`. -/
def Session.at (h : Session) (stage : Stage) : Session := { h with stage := stage }

/-- The host where only the expected result lets it go on; any other sends it to cleanup (60_exceptions.md R262 to R264). -/
def Session.require (h : Session) (expected result : ResultCode) (stage : Stage) : Session :=
  if result = expected then h.at stage else h.at (.cleanup false)

/-- Erase leaves the pending set where its phase completes, with an ACK (60_exceptions.md R261, R263). DESIGN CHOICE
(log 28): the rule does not say whether a SEND that ends otherwise removes it; here it stays. -/
def Pending.afterErase (p : Pending) (r : ResultCode) : Pending :=
  if r = .ack then { p with erase := false } else p

/-- One decision of the host with STATUS.RESULT = `r` (60_exceptions.md R261 to R268). -/
def Session.advance (h : Session) (r : ResultCode) : Session × HostMove :=
  match h.stage with
  | .powerOn => (h.at .handshake, .reset)
  | .handshake => (h.at .handshakeResult, .issue .sync)
  | .handshakeResult => (h.require .ok r (if h.pending.erase then .eraseBuild else .openFile), .stay)
  | .eraseBuild => (h.at .eraseSend, .issue .buildE)
  | .eraseSend => (h.at .eraseResult, .issue .send)
  | .eraseResult => ({ h with pending := h.pending.afterErase r }.require .ack r .openFile, .stay)
  | .openFile => (h.at (openStage h.pending h.file), .stay)
  | .lineLoad pass [] =>
    ({ h with pending := h.pending.remove pass }.at (openStage (h.pending.remove pass) h.file), .stay)
  | .lineLoad pass (l :: rest) => (h.at (.lineDecode pass rest), .act (.line l))
  | .lineDecode pass rest => (h.at (.lineDecoded pass rest), .issue .hexdec)
  | .lineDecoded pass rest =>
    if r = .skip then (h.at (.lineLoad pass rest), .stay)
    else if r = .ok then (h.at (.lineSend pass rest), .issue pass.build)
    else (h.at (.cleanup false), .stay)
  | .lineSend pass rest => (h.at (.lineResult pass rest), .issue .send)
  | .lineResult pass rest => (h.require .ack r (.lineLoad pass rest), .stay)
  | .runBuild => (h.at .runSend, .issue .buildR)
  | .runSend => (h.at .runResult, .issue .send)
  | .runResult => (h.at (.cleanup (r == .ack)), .stay)
  | .cleanup _ => (h, .stay)

/-- The host decides only in PHASE = IDLE and once its last action has been taken; but the reset that starts a session it
may assert at any time, whatever the block is waiting for (60_exceptions.md R260, R262). -/
def hostMayDecide (h : Session) (s : State) : Bool :=
  decide (h.stage = .powerOn) || (decide (s.phase = .idle) && s.hostQ.isEmpty)

/-- The host's move given to the block. Reset comes before every other turn, and the host gives up what it had queued
before it (log 26). -/
def State.giveMove (s : State) (m : HostMove) : State :=
  match m with
  | .stay => s
  | .reset => { s with agenda := .reset :: s.agenda, hostQ := [] }
  | .act a => { s with hostQ := s.hostQ ++ [a] }

/-- A host in a session, and its block. -/
structure System where
  host : Session
  block : State
  deriving DecidableEq, Repr

/-- The host's decision, where it may decide. -/
def System.hostDecides (y : System) : System :=
  if hostMayDecide y.host y.block then
    let d := y.host.advance y.block.status.result
    { host := d.1, block := y.block.giveMove d.2 }
  else y

/-- One step of the whole system: the host's decision, then one step of the machine. -/
def System.step (y : System) : Host.Outcome System Fault Refusal :=
  let y' := y.hostDecides
  match Machine.step y'.block with
  | .next s => .next { host := y'.host, block := s }
  | .fault r => .fault r
  | .refused r => .refused r

end Sys2Proof.Machine
end

