-- ==== Sys2Proof/Safety.lean ====
section
/-! DEFINITION. What counts as a safe state and a safe run, in the terms claims use: the invariant of the control
registers, of the byte spaces and of the packet in PKTBUF, the host's duty to stay inside its buffers, and a run
without a reset. -/
namespace Sys2Proof.Machine

/-- The relations between the control registers that every run keeps. -/
structure ControlInv (s : State) : Prop where
  /-- An aborted block is idle (10_state.md R27, 60_exceptions.md R242). -/
  abortedIdle : s.status.aborted = true → s.phase = .idle
  /-- FAULT of an aborted block is a fatal code (10_state.md R25). -/
  faultFatal : s.status.aborted = true → s.status.fault.isFatal = true
  /-- FAULT of a block that is not aborted is 0 (10_state.md R25). -/
  faultNone : s.status.aborted = false → s.status.fault = .none
  /-- A fatal RESULT is that of an aborted block (10_state.md R25, 60_exceptions.md R242). -/
  resultFatal : s.status.result.isFatal = true → s.status.aborted = true
  /-- SEND waits on a synced line with its packet sent (43_transmitter.md R203, R208). -/
  sendWait : s.phase = .sendWait → s.status.linkSynced = true ∧ s.status.pktValid = false
  /-- SYNC waits with LINK_SYNCED = 0 (43_transmitter.md R212). -/
  hsWait : s.phase = .hsWait → s.status.linkSynced = false
  /-- SYNC reads with LINK_SYNCED = 0 (43_transmitter.md R212). -/
  hsRead : s.phase = .hsRead → s.status.linkSynced = false
  /-- A valid record is a Data record (10_state.md R26, 41_hex_decoder.md R148). -/
  recData : s.status.recValid = true → s.record.type = typeData
  /-- LINELEN is at most MAX_LINE (10_state.md R33). -/
  lineLen : s.lineLen ≤ Config.maxLine

/-- What every complete packet looks like (30_encoding.md R92 to R95, R99; 42_packet_framer.md R179, R189): preamble, a
length field that counts all but four bytes, one of the four command bytes as sent, a target address whose top bytes are
0, and a sum of 0 over all bytes from the length field on. -/
def packetShape (p : List Byte) : Prop :=
  ∃ len cmd hi lo rest,
    p = preamble0 :: preamble1 :: len :: cmd :: 0x00 :: 0x00 :: hi :: lo :: rest ∧
    p.length = len.toNat + packetOverhead ∧
    9 ≤ p.length ∧
    cmd ∈ [cmdErase, cmdWrite, rotl3 cmdVerify, cmdRun] ∧
    sum8 (p.drop 2) = 0

/-- PKTBUF[0 .. PKTLEN−1] (10_state.md R30). -/
def State.packet (s : State) : List Byte := readBytes s.mem.pkt 0 s.pktLen.toNat

/-- PKTBUF holds no packet yet, or a complete one; a valid packet is a complete one (10_state.md R26, R30). -/
structure PacketInv (s : State) : Prop where
  held : s.pktLen = 0 ∨ packetShape s.packet
  valid : s.status.pktValid = true → s.pktLen ≠ 0

/-- The invariant of the machine. -/
structure State.Inv (s : State) : Prop where
  memory : s.mem.wf = true
  control : ControlInv s
  packet : PacketInv s

/-- A host action that stays inside the host's buffers (20_memory.md R60, R61). -/
def HostAct.inSpace : HostAct → Bool
  | .request _ => true
  | .line cs => decide (cs.length ≤ Space.line.size)
  | .lineByte a _ => decide (a < Space.line.size)
  | .lineLen n => decide (n ≤ Space.line.size)
  | .ckbuf a bs => decide (a + bs.length ≤ Space.ckb.size)

/-- Every action the host has still to make stays inside its buffers. -/
def State.hostInSpace (s : State) : Bool := s.hostQ.all HostAct.inSpace

/-- The next turn of the agenda is no reset. -/
def State.noResetNext (s : State) : Prop := s.agenda.head? ≠ some .reset

/-- No turn of the agenda is a reset. -/
def State.noReset (s : State) : Prop := .reset ∉ s.agenda

/-- The block accepts a request and does not refuse it (60_exceptions.md R243). -/
def State.ready (s : State) : Prop := s.phase = .idle ∧ s.status.aborted = false

/-- The sum of a byte sequence modulo 256, computed on the numbers (00_scope.md R8): the clear form of `sum8`. -/
def numericSum (s : List Byte) : Byte := BitVec.ofNat 8 ((s.map BitVec.toNat).sum % 256)

/-- The checksum of a byte sequence, computed on the numbers (40_checksum.md R121): the clear form of `checksum`. -/
def numericChecksum (s : List Byte) : Byte := BitVec.ofNat 8 ((256 - (s.map BitVec.toNat).sum % 256) % 256)

/-- The bytes of a space at addresses 0 to `n` − 1 (20_memory.md R60): the clear form of `readBytes` from 0. -/
def firstBytes (c : Cells) (n : Nat) : List Byte := (List.range n).map (readCell c)

/-- The text of a HEX line up to its record type pair (30_encoding.md R86). -/
def lineStart (count : Byte) (addr : BitVec 16) (type : Byte) : List Byte :=
  charMarker :: (hexPair count ++ hexPair (hi8 addr) ++ hexPair (lo8 addr) ++ hexPair type)

/-- The text of a HEX line of any record type with its data and checksum pairs (30_encoding.md R86). -/
def lineText (addr : BitVec 16) (type : Byte) (data : List Byte) (cks : Byte) : List Byte :=
  lineStart (BitVec.ofNat 8 data.length) addr type ++ data.flatMap hexPair ++ hexPair cks

/-- Instructions run one after another, each on the state the one before left. -/
def runInstrs : List Instr → State → StepResult
  | [], s => .next s
  | i :: is, s =>
    match exec i s with
    | .next t => runInstrs is t
    | .fault r => .fault r
    | .refused r => .refused r

/-- The host's decisions for a list of results read one after another: its session then, and the moves it made. -/
def Session.decisions (h : Session) : List ResultCode → Session × List HostMove
  | [] => (h, [])
  | r :: rs =>
    let d := h.advance r
    let rest := d.1.decisions rs
    (rest.1, d.2 :: rest.2)

/-- No turn of the agenda brings a response byte, an I/O error or a reset: the host and the block alone move. -/
def State.silent (s : State) : Bool :=
  s.agenda.all fun t =>
    match t with
    | .host _ => true
    | .block ev _ => decide (ev ≠ .ioErr)
    | .device _ => false
    | .reset => false

/-- The pending set agrees with the stage of a session: a phase that is past is no longer pending (60_exceptions.md R261,
R265). -/
def Session.consistent (h : Session) : Prop :=
  match h.stage with
  | .openFile => h.pending.erase = false
  | .lineLoad pass _ => h.pending.erase = false ∧ (h.pending.write = true ↔ pass = .write)
  | .lineDecode pass _ => h.pending.erase = false ∧ (h.pending.write = true ↔ pass = .write)
  | .lineDecoded pass _ => h.pending.erase = false ∧ (h.pending.write = true ↔ pass = .write)
  | .lineSend pass _ => h.pending.erase = false ∧ (h.pending.write = true ↔ pass = .write)
  | .lineResult pass _ => h.pending.erase = false ∧ (h.pending.write = true ↔ pass = .write)
  | .runBuild => h.pending = ⟨false, false, false⟩
  | .runSend => h.pending = ⟨false, false, false⟩
  | .runResult => h.pending = ⟨false, false, false⟩
  | .powerOn => True
  | .handshake => True
  | .handshakeResult => True
  | .eraseBuild => True
  | .eraseSend => True
  | .eraseResult => True
  | .cleanup _ => True

end Sys2Proof.Machine
end

