-- ==== Sys2Proof/Certificates/Slice0/Obligations.lean ====
section
/-! DEFINITION. The statements for the provers, from the numbered rules of spec/. A statement about the next state of an
instruction gives the whole state, so it is the instruction's result, its frame and its completion at once. -/
open Sys2Proof Sys2Proof.Machine

/-! ### Encoding -/

/-- Request words and wire bytes written out from 30_encoding.md R81, R91, R93 to R97 decode to what they stand for. -/
def Obligations.WrittenWordsDecode : Prop :=
  decodeRequest 0x00000001 = .ok .ckClr ∧ decodeRequest 0x00002002 = .ok (.ckAdd 0x20) ∧
    decodeRequest 0x00100003 = .ok (.cksum 16) ∧ decodeRequest 0x01000003 = .ok (.cksum 256) ∧
    decodeRequest 0x00000004 = .ok .hexdec ∧ decodeRequest 0x00000007 = .ok .buildV ∧
    decodeRequest 0x0000000A = .ok .sync ∧ decodeRequest 0x01010003 = .error .lengthTooLarge ∧
    decode ⟨.packetByte3, 0xB2⟩ = .ok .pktCmdVerify ∧ decode ⟨.rxResponse0, 0x07⟩ = .ok .respNack ∧
    decode ⟨.packetByte0, 0x07⟩ = .ok .pktPreamble0 ∧ decode ⟨.hexType, 0x04⟩ = .ok (.hexTypeOther 0x04)

/-- Decoding an encoded well-formed instruction gives it back, with every operand at every value its row admits
(30_encoding.md R80 to R84, R91, R93, R94, R96, R97; logs 1 to 4: the wire rows as instructions are the model's
choice). -/
def Obligations.DecodeOfEncode : Prop := ∀ i : Instr, i.wellFormed = true → decode (encode i) = .ok i

/-- A decoded word or byte is the encoding of what it decodes to, which is well formed: no two encodings share a meaning
(30_encoding.md R80, R81; logs 1 to 4: the wire rows as instructions are the model's choice). -/
def Obligations.EncodeOfDecode : Prop :=
  ∀ (e : Encoded) (i : Instr), decode e = .ok i → encode i = e ∧ i.wellFormed = true

/-- A word decodes to an operation exactly when it matches the operation's row, mask and match, with CKSUM's N9 at most
256, and the operands are the row's fields; at most one row matches any word (30_encoding.md R81). -/
def Obligations.WordDecodesByItsOneRow : Prop :=
  let taken : Instr → Word → Prop := fun i w =>
    i.row.place = .request ∧ w &&& i.row.mask = i.row.pattern ∧
      (∀ b, i = .ckAdd b → b = w.extractLsb' 8 8) ∧
      (∀ n, i = .cksum n → n = w.extractLsb' 16 9 ∧ n.toNat ≤ 256)
  (∀ w i, decodeRequest w = .ok i ↔ taken i w) ∧ ∀ w i j, taken i w → taken j w → i = j

/-- The illegal words are those that match no row, and exactly those of the list of 30_encoding.md R82; an illegal word
raises Fatal(ILLEGAL_OP) in an idle block that is not aborted and is refused in an aborted one (60_exceptions.md R243,
R254). -/
def Obligations.IllegalWordsAreExactlyListed : Prop :=
  ∀ w : Word,
    ((∃ e, decodeRequest w = .error e) ↔
      ∀ i : Instr, i.row.place = .request → w &&& i.row.mask = i.row.pattern →
        ∃ n, i = .cksum n ∧ 256 < (w.extractLsb' 16 9).toNat) ∧
    ((∃ e, decodeRequest w = .error e) ↔
      (w.extractLsb' 0 4 = 0x0 ∨ 0xB ≤ (w.extractLsb' 0 4).toNat) ∨
        (w.extractLsb' 4 4 ≠ 0 ∨ w.extractLsb' 25 7 ≠ 0) ∨
        (w.extractLsb' 8 8 ≠ 0 ∧ w.extractLsb' 0 4 ≠ 0x2) ∨
        (w.extractLsb' 16 9 ≠ 0 ∧ w.extractLsb' 0 4 ≠ 0x3) ∨
        (256 < (w.extractLsb' 16 9).toNat ∧ w.extractLsb' 0 4 = 0x3)) ∧
    ∀ (s : State) (e : DecodeError), decodeRequest w = .error e → s.phase = .idle →
      (s.status.aborted = false → s.request w =
        .next { s with status := { s.status with result := .illegalOp, fault := .illegalOp, aborted := true } }) ∧
      (s.status.aborted = true → s.request w =
        .next { s with status := { s.status with result := .refused } })

/-! ### Checksum generator -/

/-- The checksum is the two's complement negation of the 8-bit truncated sum, in both of the spec's forms, whatever the
order of the bytes (40_checksum.md R120, R121). -/
def Obligations.ChecksumIsNegatedTruncatedSum : Prop :=
  ∀ s : List Byte,
    sum8 s = numericSum s ∧ checksum s = numericChecksum s ∧ checksum s = ~~~(numericSum s) + 1 ∧
      ∀ t : List Byte, s.Perm t → checksum t = checksum s

/-- Appending its checksum to a sequence makes the whole sum to 0 modulo 256 (40_checksum.md R126). -/
def Obligations.AppendedChecksumClosesSum : Prop := ∀ s : List Byte, numericSum (s ++ [checksum s]) = 0

/-- CK_CLR clears CKACC and writes RESULT ← OK, and changes nothing else (40_checksum.md R122). -/
def Obligations.CkClrClearsAccumulator : Prop :=
  decodeRequest 0x00000001 = .ok .ckClr ∧
    ∀ s : State, s.ready →
      exec .ckClr s = .next { s with ckacc := 0x00, status := { s.status with result := .ok } }

/-- CK_ADD adds its byte to CKACC modulo 256 and writes RESULT ← OK, and changes nothing else (40_checksum.md R123). -/
def Obligations.CkAddAddsByte : Prop :=
  ∀ (b : Byte) (w : Word), w &&& 0xFFFF00FF = 0x00000002 → w.extractLsb' 8 8 = b →
    decodeRequest w = .ok (.ckAdd b) ∧
    ∀ s : State, s.ready →
      exec (.ckAdd b) s = .next { s with
        ckacc := BitVec.ofNat 8 ((s.ckacc.toNat + b.toNat) % 256)
        status := { s.status with result := .ok } }

/-- CKSUM n replaces CKACC by the sum of CKBUF[0 .. n−1] and writes RESULT ← OK, and changes nothing else; its words are
those of its row, and n > 256 is an illegal word (40_checksum.md R125). -/
def Obligations.CksumSumsBuffer : Prop :=
  ∀ n : BitVec 9,
    (256 < n.toNat → ∃ e, decodeRequest ((n.setWidth 32 <<< 16) ||| 0x3) = .error e) ∧
    (n.toNat ≤ 256 →
      decodeRequest ((n.setWidth 32 <<< 16) ||| 0x3) = .ok (.cksum n) ∧
      ∀ s : State, s.ready →
        exec (.cksum n) s = .next { s with
          ckacc := numericSum (firstBytes s.mem.ckb n.toNat)
          status := { s.status with result := .ok } })

/-- After CK_CLR and CK_ADD of the bytes of a sequence, CK_OUT is its checksum, and only CKACC and RESULT have changed
(40_checksum.md R124). -/
def Obligations.CkAddSequenceGivesChecksum : Prop :=
  ∀ (bs : List Byte) (s : State), s.ready →
    ∃ t, runInstrs (.ckClr :: bs.map .ckAdd) s = .next t ∧ t.ckOut = numericChecksum bs ∧
      t = { s with ckacc := t.ckacc, status := { s.status with result := .ok } }

/-! ### Record parser -/

/-- The character `c` is a hex digit of value `v`, by its code: `0` to `9`, `A` to `F`, and `a` to `f` where HEX_LC = 1
(30_encoding.md R87). -/
abbrev Sys2Proof.Machine.isHexDigit (lc : Bool) (c v : Byte) : Prop :=
  (0x30 ≤ c.toNat ∧ c.toNat ≤ 0x39 ∧ c.toNat = 0x30 + v.toNat) ∨
    (0x41 ≤ c.toNat ∧ c.toNat ≤ 0x46 ∧ c.toNat + 10 = 0x41 + v.toNat) ∨
    (lc = true ∧ 0x61 ≤ c.toNat ∧ c.toNat ≤ 0x66 ∧ c.toNat + 10 = 0x61 + v.toNat)

/-- Every field character of the line from 1 on and before `p` is a hex digit. -/
def Sys2Proof.Machine.State.digitsBefore (s : State) (p : Nat) : Prop :=
  ∀ q, 1 ≤ q → q < p → ∃ c v, s.fieldChars[q]? = some c ∧ isHexDigit s.config.hexLc c v

/-- The characters at `j` and `j + 1` of the line are a hex pair of value `b`, high nibble first (30_encoding.md R87,
R88). -/
def Sys2Proof.Machine.State.hasPair (s : State) (j : Nat) (b : Byte) : Prop :=
  ∃ c d h l, s.fieldChars[j]? = some c ∧ s.fieldChars[j + 1]? = some d ∧
    isHexDigit s.config.hexLc c h ∧ isHexDigit s.config.hexLc d l ∧ b.toNat = 16 * h.toNat + l.toNat

/-- The line holds the marker and the pairs of these fields up to the record type at their characters
(30_encoding.md R86, R89). -/
def Sys2Proof.Machine.State.hasHeader (s : State) (count : Byte) (addr : BitVec 16) (type : Byte) : Prop :=
  s.fieldChars.head? = some 0x3A ∧ s.hasPair 1 count ∧ s.hasPair 3 (addr.extractLsb' 8 8) ∧
    s.hasPair 5 (addr.extractLsb' 0 8) ∧ s.hasPair 7 type

/-- The state after a Data line with these fields (41_hex_decoder.md R148). -/
def Sys2Proof.Machine.State.afterData (s : State) (addr : BitVec 16) (data : List Byte) (cks : Byte) : State :=
  { s with
    record := { count := BitVec.ofNat 8 data.length, addr := addr, type := 0x00, cks := cks }
    mem := { s.mem with recd := writeBytes s.mem.recd 0 data }
    status := { s.status with recValid := true, result := .ok } }

/-- The state after a line of the type `t` ≠ 00 with these fields (41_hex_decoder.md R149). -/
def Sys2Proof.Machine.State.afterSkip (s : State) (count : Byte) (addr : BitVec 16) (t : Byte) : State :=
  { s with
    record := { s.record with count := count, addr := addr, type := t }
    diag := s.diag ++ [.skip t s.lineChars]
    status := { s.status with recValid := false, result := .skip } }

/-- HEXDEC of a line with record type 00 whose data and checksum pairs can be read decodes exactly these fields, upper or
lower case where HEX_LC admits it, whatever follows the checksum pair, and ends in OK. The data bytes go to REC_DATA from 0
on, every later byte of REC_DATA stays, and nothing else changes (41_hex_decoder.md R145 to R148). -/
def Obligations.HexdecDecodesDataLines : Prop :=
  ∀ (s : State) (addr : BitVec 16) (data : List Byte) (cks : Byte),
    s.ready → s.lineLen ≤ Config.maxLine → data.length ≤ 255 →
    s.hasHeader (BitVec.ofNat 8 data.length) addr 0x00 →
    (∀ i b, data[i]? = some b → s.hasPair (9 + 2 * i) b) → s.hasPair (9 + 2 * data.length) cks →
    exec .hexdec s = .next (s.afterData addr data cks) ∧
      (s.mem.wf = true → firstBytes (s.afterData addr data cks).mem.recd data.length = data) ∧
      ∀ a, data.length ≤ a → readCell (s.afterData addr data cks).mem.recd a = readCell s.mem.recd a

/-- Every Data record has a line that HEXDEC decodes to it: the text of the record, any data up to 255 bytes, any address
and any checksum byte, whatever follows it (30_encoding.md R86, 41_hex_decoder.md R147, R148). -/
def Obligations.HexdecDecodesEveryWrittenRecord : Prop :=
  ∀ (s : State) (addr : BitVec 16) (data : List Byte) (cks : Byte) (tail : List Byte),
    s.ready → s.lineLen ≤ Config.maxLine → data.length ≤ 255 →
    s.lineChars = lineText addr 0x00 data cks ++ tail →
    exec .hexdec s = .next (s.afterData addr data cks)

/-- HEXDEC of a line whose record type is not 00 ends in SKIP, whatever stands after the record type pair: it writes
REC_COUNT, REC_ADDR, REC_TYPE, clears REC_VALID and logs one SkipEvent (41_hex_decoder.md R144, R149). -/
def Obligations.HexdecSkipsOtherTypes : Prop :=
  ∀ (s : State) (count : Byte) (addr : BitVec 16) (t : Byte),
    s.ready → s.lineLen ≤ Config.maxLine → t ≠ 0x00 → s.hasHeader count addr t →
    exec .hexdec s = .next (s.afterSkip count addr t)

/-- The record-type rows, executed on the line in LINEBUF, do what HEXDEC does from the record type on: HEX_TYPE_DATA
decodes the data and checksum pairs, HEX_TYPE_OTHER skips (log 2: the rows as instructions are the model's choice). -/
def Obligations.RecordTypeRowsFinishTheLine : Prop :=
  (∀ (s : State) (addr : BitVec 16) (data : List Byte) (cks ty : Byte),
    s.ready → s.lineLen ≤ Config.maxLine → data.length ≤ 255 →
    s.hasHeader (BitVec.ofNat 8 data.length) addr ty →
    (∀ i b, data[i]? = some b → s.hasPair (9 + 2 * i) b) → s.hasPair (9 + 2 * data.length) cks →
    exec .hexTypeData s = .next (s.afterData addr data cks)) ∧
  ∀ (s : State) (count : Byte) (addr : BitVec 16) (t ty : Byte),
    s.ready → s.lineLen ≤ Config.maxLine → s.hasHeader count addr ty →
    exec (.hexTypeOther t) s = .next (s.afterSkip count addr t)

/-- What HEXDEC leaves in a block that was not aborted when it ends in FORMAT_ERROR with this cause and position
(41_hex_decoder.md R150, 60_exceptions.md R242, R245). -/
def Sys2Proof.Machine.State.afterFormatError (s : State) (cause : FmtCause) (pos : Nat) : State :=
  { s with status := { s.status with
      recValid := false, fmtCause := cause, fmtPos := BitVec.ofNat 10 pos, result := .formatError,
      fault := .formatError, aborted := true } }

/-- An empty line, or one whose first character is not `:`, ends HEXDEC in FORMAT_ERROR with MISSING_MARKER at position 0
(41_hex_decoder.md R141). -/
def Obligations.HexdecRequiresMarker : Prop :=
  ∀ s : State, s.ready → s.lineLen ≤ Config.maxLine → s.fieldChars.head? ≠ some 0x3A →
    exec .hexdec s = .next (s.afterFormatError .missingMarker 0)

/-- The position a FORMAT_ERROR of a marked line reports is that of its first failing character in line order: every
earlier field character is a hex digit, and this one is at LEND (TRUNCATED) or no hex digit (BAD_DIGIT); nothing else
changes (41_hex_decoder.md R143, R150). -/
def Obligations.FormatErrorIsFirstFailingCharacter : Prop :=
  ∀ s t : State, s.ready → s.fieldChars.head? = some 0x3A → exec .hexdec s = .next t →
    t.status.result = .formatError →
    ∃ p : Nat, 1 ≤ p ∧ p ≤ 520 ∧
      s.digitsBefore p ∧
      ((p = s.fieldChars.length ∧ t = s.afterFormatError .truncated p) ∨
        (∃ c, s.fieldChars[p]? = some c ∧ (∀ v, ¬isHexDigit s.config.hexLc c v) ∧
          t = s.afterFormatError .badDigit p))

/-- The hex digits are exactly the characters of the list of R87, at both values of HEX_LC, and the first failing character
of a marked line is always reported, with its cause and its position: among the pairs up to the record type, and on a Data
line among its data and checksum pairs (30_encoding.md R87, 41_hex_decoder.md R143). -/
def Obligations.HexdecReportsFirstFailingCharacter : Prop :=
  (∀ lc c v, hexVal lc c = some v ↔ isHexDigit lc c v) ∧
  ∀ (s : State) (p : Nat), s.ready → s.lineLen ≤ Config.maxLine → s.fieldChars.head? = some 0x3A → 1 ≤ p →
    (p ≤ 8 ∨ ∃ count addr, s.hasHeader count addr 0x00 ∧ p ≤ 10 + 2 * count.toNat) → s.digitsBefore p →
    (p = s.fieldChars.length → exec .hexdec s = .next (s.afterFormatError .truncated p)) ∧
    (∀ c, s.fieldChars[p]? = some c → (∀ v, ¬isHexDigit s.config.hexLc c v) →
      exec .hexdec s = .next (s.afterFormatError .badDigit p))

/-- Where the record type pair of the line can be read, HEXDEC does what the row of that type does (41_hex_decoder.md
R144; log 2: the rows as instructions are the model's choice). -/
def Obligations.HexdecRunsItsRecordTypeRow : Prop :=
  ∀ (s : State) (t : Byte), readType s.config.hexLc s.fieldChars = .ok t →
    exec .hexdec s = exec (decodeHexType t) s

/-! ### Packet framer -/

/-- What a BUILD operation that completes leaves: the bytes of `p` in PKTBUF from address 0 on, every later byte of PKTBUF
as before, PKTLEN their number, CKACC = `acc`, PKT_VALID and RESULT ← OK, and nothing else changed. -/
def Sys2Proof.Machine.State.builds (s : State) (i : Instr) (p : List Byte) (acc : Byte) : Prop :=
  ∃ t, exec i s = .next t ∧
    firstBytes t.mem.pkt p.length = p ∧
    (∀ a, p.length ≤ a → readCell t.mem.pkt a = readCell s.mem.pkt a) ∧
    t = { s with
      mem := { s.mem with pkt := t.mem.pkt }
      pktLen := BitVec.ofNat 9 p.length
      ckacc := acc
      status := { s.status with pktValid := true, result := .ok } }

/-- BUILD_E builds the ten bytes of the Erase packet, whatever any register holds (42_packet_framer.md R182). -/
def Obligations.BuildEBuildsErasePacket : Prop :=
  decodeRequest 0x00000005 = .ok .buildE ∧
    ∀ s : State, s.mem.wf = true → s.ready →
      s.builds .buildE [0x07, 0x0E, 0x06, 0x45, 0x00, 0x00, 0x00, 0x00, 0x00, 0xB5] 0x4B

/-- BUILD_R builds the nine bytes of the Run packet, whatever any register holds (42_packet_framer.md R185). -/
def Obligations.BuildRBuildsRunPacket : Prop :=
  decodeRequest 0x00000008 = .ok .buildR ∧
    ∀ s : State, s.mem.wf = true → s.ready →
      s.builds .buildR [0x07, 0x0E, 0x05, 0x52, 0x00, 0x00, 0x00, 0x00, 0xA9] 0x57

/-- The packet bytes of a record: preamble, length field REC_COUNT + 5, the span with `rot` applied to each byte, and the
checksum over length field and span (30_encoding.md R92, 42_packet_framer.md R170). -/
def Sys2Proof.Machine.State.recordPacket (s : State) (cmd : Byte) (rot : Byte → Byte) : List Byte :=
  let len : Byte := BitVec.ofNat 8 (s.record.count.toNat + 5)
  let span := (cmd :: 0x00 :: 0x00 :: s.record.addr.extractLsb' 8 8 :: s.record.addr.extractLsb' 0 8 ::
    firstBytes s.mem.recd s.record.count.toNat).map rot
  [0x07, 0x0E, len] ++ span ++ [numericChecksum (len :: span)]

/-- BUILD_W builds the Write packet of a valid record of at most 250 bytes, raw, and leaves CKACC = the sum of length
field and span (42_packet_framer.md R183, R187). -/
def Obligations.BuildWBuildsWritePacket : Prop :=
  ∀ s : State, s.mem.wf = true → s.ready → s.status.recValid = true → s.record.count.toNat ≤ 250 →
    s.builds .buildW (s.recordPacket 0x57 id) (numericSum ((s.recordPacket 0x57 id).drop 2).dropLast)

/-- BUILD_V builds the Verify packet of a valid record of at most 250 bytes, every span byte rotated left by 3, and leaves
CKACC = the sum of length field and rotated span (42_packet_framer.md R176, R184, R187). -/
def Obligations.BuildVBuildsVerifyPacket : Prop :=
  ∀ s : State, s.mem.wf = true → s.ready → s.status.recValid = true → s.record.count.toNat ≤ 250 →
    s.builds .buildV (s.recordPacket 0x56 (fun b => b.rotateLeft 3))
      (numericSum ((s.recordPacket 0x56 (fun b => b.rotateLeft 3)).drop 2).dropLast)

/-- BUILD_W and BUILD_V without a valid record raise Fatal(NO_RECORD), and with one of more than 250 bytes
Fatal(LENGTH_OVERFLOW); they clear PKT_VALID and write no packet (42_packet_framer.md R180, R181). -/
def Obligations.RecordBuildsFaultWithoutFittingRecord : Prop :=
  ∀ (s : State) (i : Instr), i = .buildW ∨ i = .buildV → s.ready →
    (s.status.recValid = false → exec i s = .next { s with status := { s.status with
      pktValid := false, result := .noRecord, fault := .noRecord, aborted := true } }) ∧
    (s.status.recValid = true → 250 < s.record.count.toNat → exec i s = .next { s with status := { s.status with
      pktValid := false, result := .lengthOverflow, fault := .lengthOverflow, aborted := true } })

/-- rotr3 undoes rotl3, and rotating every span byte of a Verify packet right by 3 gives the span of the Write packet of
the same record but for the command byte, 0x56 for 0x57 (42_packet_framer.md R188, R184). -/
def Obligations.VerifySpanRotatesBackToWriteSpan : Prop :=
  (∀ b : Byte, rotr3 (rotl3 b) = b) ∧
    ∀ s tw tv : State, s.mem.wf = true → s.ready → s.status.recValid = true → s.record.count.toNat ≤ 250 →
      exec .buildW s = .next tw → exec .buildV s = .next tv →
      tv.pktLen = tw.pktLen ∧ rotr3 (readCell tv.mem.pkt 3) = 0x56 ∧ readCell tw.mem.pkt 3 = 0x57 ∧
        ∀ a, 4 ≤ a → a + 1 < tw.pktLen.toNat → rotr3 (readCell tv.mem.pkt a) = readCell tw.mem.pkt a

/-- A BUILD operation that completes leaves CKACC the sum of the length byte and the span, so that CK_OUT is the packet's
last byte (42_packet_framer.md R187). -/
def Obligations.CkOutIsPacketChecksum : Prop :=
  ∀ (s t : State) (i : Instr), i ∈ [Instr.buildE, .buildW, .buildV, .buildR] → s.mem.wf = true → s.ready →
    exec i s = .next t → t.status.result = .ok →
    t.ckacc = numericSum ((t.packet.drop 2).dropLast) ∧ t.packet.getLast? = some t.ckOut

/-- A BUILD operation's packet depends on the command and the record alone: from two states with the same record registers
and the same REC_DATA[0 .. REC_COUNT−1], it builds the same PKTBUF[0 .. PKTLEN−1] (42_packet_framer.md R186). -/
def Obligations.PacketDependsOnRecordAlone : Prop :=
  ∀ (s s' t t' : State) (i : Instr), i ∈ [Instr.buildE, .buildW, .buildV, .buildR] →
    s.mem.wf = true → s'.mem.wf = true → s.ready → s'.ready →
    s.record.count = s'.record.count → s.record.addr = s'.record.addr →
    firstBytes s.mem.recd s.record.count.toNat = firstBytes s'.mem.recd s.record.count.toNat →
    exec i s = .next t → exec i s' = .next t' → t.status.result = .ok → t'.status.result = .ok →
    t.pktLen = t'.pktLen ∧ t.packet = t'.packet

/-- The packet rows store their byte at their place of PKTBUF and change nothing else (30_encoding.md R92 to R94; log 1:
these rows as instructions are the model's choice). -/
def Obligations.PacketRowsStoreTheirByte : Prop :=
  ∀ (s : State) (i : Instr) (a : Nat) (b : Byte),
    (i, a, b) ∈ [(Instr.pktPreamble0, 0, (0x07 : Byte)), (.pktPreamble1, 1, 0x0E), (.pktCmdErase, 3, 0x45),
      (.pktCmdWrite, 3, 0x57), (.pktCmdVerify, 3, 0xB2), (.pktCmdRun, 3, 0x52)] →
    s.mem.wf = true → s.ready →
    ∃ t, exec i s = .next t ∧ readCell t.mem.pkt a = b ∧
      (∀ c, c ≠ a → readCell t.mem.pkt c = readCell s.mem.pkt c) ∧
      t = { s with mem := { s.mem with pkt := t.mem.pkt } }

/-- The packet rows agree with the framer: on the packet a BUILD operation has built, its preamble rows and its command
row change nothing (42_packet_framer.md R170, 30_encoding.md R92 to R94; log 1). -/
def Obligations.BuiltPacketHoldsItsRows : Prop :=
  ∀ (s t : State) (build row : Instr),
    (build, row) ∈ [(Instr.buildE, Instr.pktCmdErase), (.buildW, .pktCmdWrite), (.buildV, .pktCmdVerify),
      (.buildR, .pktCmdRun)] →
    s.mem.wf = true → s.ready → exec build s = .next t → t.status.result = .ok →
    exec .pktPreamble0 t = .next t ∧ exec .pktPreamble1 t = .next t ∧ exec row t = .next t

/-! ### Transmitter -/

/-- SEND on a line that is not synced raises Fatal(NOT_SYNCED), and without a valid packet Fatal(NO_PACKET); it sends
nothing and leaves PKT_VALID as it is (43_transmitter.md R203). -/
def Obligations.SendChecksLinkThenPacket : Prop :=
  ∀ s : State, s.ready →
    (s.status.linkSynced = false → exec .send s = .next { s with status := { s.status with
      result := .notSynced, fault := .notSynced, aborted := true } }) ∧
    (s.status.linkSynced = true → s.status.pktValid = false → exec .send s = .next { s with status := { s.status with
      result := .noPacket, fault := .noPacket, aborted := true } })

/-- SEND with a synced line and a valid packet appends PKTBUF[0 .. PKTLEN−1] to TX, clears PKT_VALID and waits in
SEND_WAIT; nothing else changes (43_transmitter.md R202, R204). -/
def Obligations.SendTransmitsPacket : Prop :=
  ∀ s : State, s.ready → s.status.linkSynced = true → s.status.pktValid = true → s.pktLen.toNat ≤ 259 →
    s.event ≠ .ioErr →
    exec .send s = .next { s with
      tx := s.tx ++ firstBytes s.mem.pkt s.pktLen.toNat
      phase := .sendWait
      status := { s.status with pktValid := false } }

/-- IOERR at SEND's transmit step, or in SEND_WAIT, raises Fatal(LINK_ERROR): at the transmit step no byte is appended to
TX, in SEND_WAIT none is taken from RX (43_transmitter.md R209). -/
def Obligations.SendLinkErrors : Prop :=
  (∀ s : State, s.ready → s.status.linkSynced = true → s.status.pktValid = true → s.event = .ioErr →
    exec .send s = .next { s with status := { s.status with
      pktValid := false, result := .linkError, fault := .linkError, aborted := true } }) ∧
  ∀ (s : State) (draw : Nat) (rest : List Turn), s.phase = .sendWait → s.status.aborted = false →
    s.agenda = .block .ioErr draw :: rest →
    step s = .next { s with
      agenda := rest, event := .ioErr, draw := draw, phase := .idle
      status := { s.status with result := .linkError, fault := .linkError, aborted := true } }

/-- The state after the one read of SEND took `k` bytes, the first of them `b` (43_transmitter.md R202, R206). -/
def Sys2Proof.Machine.State.afterRead (s : State) (b : Byte) (k : Nat) : State :=
  { s with
    rx := s.rx.drop (k - 1)
    mem := { s.mem with resp := writeBytes s.mem.resp 0 (b :: s.rx.take (k - 1)) }
    respLen := BitVec.ofNat 8 k
    phase := .idle }

/-- In SEND_WAIT, with response byte 0 taken from RX, RESP_ACK gives ACK, RESP_NACK Fatal(NACK) and RESP_UNDEFINED
Fatal(UNDEFINED), after a read of some k bytes, 1 ≤ k ≤ min(255, bytes in RX with byte 0), into RESPBUF and RESPLEN
(43_transmitter.md R206, R207; log 3). -/
def Obligations.ResponseRowsClassifyByteZero : Prop :=
  ∀ s : State, s.phase = .sendWait → s.status.aborted = false →
    ∃ k, 1 ≤ k ∧ k ≤ 255 ∧ k ≤ s.rx.length + 1 ∧
      exec .respAck s = .next { s.afterRead 0x06 k with status := { s.status with result := .ack } } ∧
      exec .respNack s = .next { s.afterRead 0x07 k with status := { s.status with
        result := .nack, fault := .nack, aborted := true } } ∧
      ∀ b, exec (.respUndefined b) s = .next { s.afterRead b k with status := { s.status with
        result := .undefined, fault := .undefined, aborted := true } }

/-- `t` is `s` after the block's step in SEND_WAIT has made one read of `k` bytes: they have left the head of RX and stand
in RESPBUF from 0 on, every later byte of RESPBUF is as before, RESPLEN is `k`, and the block is idle. -/
def Sys2Proof.Machine.State.hasRead (s t : State) (k : Nat) : Prop :=
  t.phase = .idle ∧ t.respLen.toNat = k ∧ t.rx = s.rx.drop k ∧ firstBytes t.mem.resp k = s.rx.take k ∧
    ∀ a, k ≤ a → readCell t.mem.resp a = readCell s.mem.resp a

/-- SEND makes one read of k bytes, 1 ≤ k ≤ min(255, bytes in RX), for every draw; and every such k happens for some draw
(43_transmitter.md R206). -/
def Obligations.ReadTakesAnyAdmittedCount : Prop :=
  ∀ (s : State) (ev : LinkEvent) (rest : List Turn), s.mem.wf = true → s.phase = .sendWait → s.rx ≠ [] → ev ≠ .ioErr →
    (∀ draw, ∃ k t, 1 ≤ k ∧ k ≤ min 255 s.rx.length ∧
      step { s with agenda := .block ev draw :: rest } = .next t ∧ s.hasRead t k) ∧
    ∀ k, 1 ≤ k → k ≤ min 255 s.rx.length →
      ∃ draw t, step { s with agenda := .block ev draw :: rest } = .next t ∧ s.hasRead t k

/-- SYNC clears LINK_SYNCED, empties RX and appends the one byte 0x08 to TX, and waits in HS_WAIT; with IOERR it raises
Fatal(LINK_ERROR) and sends nothing (43_transmitter.md R212). -/
def Obligations.SyncFlushesAndSendsSyncByte : Prop :=
  ∀ s : State, s.ready →
    (s.event ≠ .ioErr → exec .sync s = .next { s with
      rx := [], tx := s.tx ++ [0x08], phase := .hsWait, status := { s.status with linkSynced := false } }) ∧
    (s.event = .ioErr → exec .sync s = .next { s with
      rx := [], status := { s.status with
        linkSynced := false, result := .linkError, fault := .linkError, aborted := true } })

/-- SYNC_BYTE appends 0x08 to TX and waits in HS_WAIT, and SYNC is SYNC_BYTE after the flush (30_encoding.md R96,
43_transmitter.md R212; log 4: the row as an instruction is the model's choice). -/
def Obligations.SyncByteRowSends : Prop :=
  (∀ s : State, s.ready → s.event ≠ .ioErr →
    exec .syncByte s = .next { s with tx := s.tx ++ [0x08], phase := .hsWait }) ∧
  ∀ s : State, s.ready →
    exec .sync s = exec .syncByte { s with rx := [], status := { s.status with linkSynced := false } }

/-- In HS_WAIT TIMEOUT while RX is empty raises Fatal(HS_TIMEOUT) and IOERR raises Fatal(HS_IOERR), each with
LINK_SYNCED = 0 (43_transmitter.md R214, R215). -/
def Obligations.HandshakeWaitFailures : Prop :=
  ∀ (s : State) (draw : Nat) (rest : List Turn), s.Inv → s.phase = .hsWait →
    (s.agenda = .block .timeout draw :: rest → s.rx = [] → step s = .next { s with
      agenda := rest, event := .timeout, draw := draw, phase := .idle
      status := { s.status with
        linkSynced := false, result := .hsTimeout, fault := .hsTimeout, aborted := true } }) ∧
    (s.agenda = .block .ioErr draw :: rest → step s = .next { s with
      agenda := rest, event := .ioErr, draw := draw, phase := .idle
      status := { s.status with
        linkSynced := false, result := .hsIoErr, fault := .hsIoErr, aborted := true } })

/-- In HS_WAIT a step with RX readable goes to HS_READ, and TIMEOUT then has no effect; with RX empty and no event, and in
HS_READ with fewer than 24 bytes in RX and no IOERR, the block has no step (43_transmitter.md R213, R216; log 8: a block
without a step leaves the state as it is). -/
def Obligations.HandshakeReadiness : Prop :=
  ∀ (s : State) (ev : LinkEvent) (draw : Nat) (rest : List Turn), s.agenda = .block ev draw :: rest → ev ≠ .ioErr →
    (s.phase = .hsWait → s.rx ≠ [] →
      step s = .next { s with agenda := rest, event := ev, draw := draw, phase := .hsRead }) ∧
    (s.phase = .hsWait → s.rx = [] → ev = .none →
      step s = .next { s with agenda := rest, event := ev, draw := draw }) ∧
    (s.phase = .hsRead → s.rx.length < 24 → step s = .next { s with agenda := rest, event := ev, draw := draw })

/-- In HS_READ, with 24 bytes in RX, SYNC takes exactly 24 into DEVID, sets LINK_SYNCED, logs one DeviceIdEvent and ends in
OK, the bytes past the 24th staying in RX; IOERR raises Fatal(LINK_ERROR) (43_transmitter.md R216, R217). -/
def Obligations.DeviceIdRead : Prop :=
  ∀ (s : State) (ev : LinkEvent) (draw : Nat) (rest : List Turn), s.mem.wf = true → s.phase = .hsRead →
    s.status.aborted = false → s.agenda = .block ev draw :: rest →
    (ev ≠ .ioErr → 24 ≤ s.rx.length → ∃ t, step s = .next t ∧
      firstBytes t.mem.did 24 = s.rx.take 24 ∧
      t = { s with
        agenda := rest, event := ev, draw := draw, phase := .idle
        rx := s.rx.drop 24
        mem := { s.mem with did := t.mem.did }
        diag := s.diag ++ [.deviceId (s.rx.take 24)]
        status := { s.status with linkSynced := true, result := .ok } }) ∧
    (ev = .ioErr → step s = .next { s with
      agenda := rest, event := ev, draw := draw, phase := .idle
      status := { s.status with result := .linkError, fault := .linkError, aborted := true } })

/-- A silent device hangs SEND: while only the host and the block move, without IOERR, SEND_WAIT with RX empty lasts, no
result is written and nothing is sent or read (43_transmitter.md R205, 70_reset_and_hazards.md R302; log 8: a block
without a step leaves the state as it is). -/
def Obligations.SilentDeviceHangsSend : Prop :=
  ∀ (n : Nat) (s : State), s.phase = .sendWait → s.rx = [] → s.silent = true →
    ∃ t, Host.Core.run Sys2Proof.core n s = .next t ∧
      t = { s with agenda := t.agenda, event := t.event, draw := t.draw }

/-! ### Acceptance, abort, reset -/

/-- An idle aborted block refuses every instruction but a response byte, which no idle block reads: RESULT ← REFUSED and
nothing else changes (60_exceptions.md R243, R244). -/
def Obligations.AbortedBlockRefusesAll : Prop :=
  ∀ (i : Instr) (s : State), (encode i).place ≠ .rxResponse0 → s.phase = .idle → s.status.aborted = true →
    exec i s = .next { s with status := { s.status with result := .refused } }

/-- A block that is not idle takes no request: an operation leaves the state as it is, and the host's action stays queued
(60_exceptions.md R243, 70_reset_and_hazards.md R299; log 14). -/
def Obligations.BusyBlockTakesNoRequest : Prop :=
  (∀ (i : Instr) (s : State), (encode i).place = .request → s.phase ≠ .idle → exec i s = .next s) ∧
  ∀ (s : State) (ev : LinkEvent) (rest : List Turn), s.phase ≠ .idle → s.agenda = .host ev :: rest →
    step s = .next { s with agenda := rest }

/-- ABORTED is set exactly with a fatal result, FAULT then takes that result's code; without a reset both stay as they are
from then on, and every request is refused (10_state.md R25). -/
def Obligations.FirstFatalResultSticks : Prop :=
  ∀ s t : State, s.Inv → s.noResetNext → step s = .next t →
    (s.status.aborted = false → t.status.aborted = true →
      t.status.fault = t.status.result ∧ t.status.result.isFatal = true) ∧
    (s.status.aborted = false → t.status.result.isFatal = true → t.status.aborted = true) ∧
    (s.status.aborted = true → t.status.aborted = true ∧ t.status.fault = s.status.fault) ∧
    (s.status.aborted = true → ∀ w, s.request w =
      .next { s with status := { s.status with result := .refused } })

/-- From a fatal result until reset the block appends nothing to TX or DIAG, and no register but RESULT and the host's
LINELEN, and no buffer but the host's LINEBUF and CKBUF, changes, whatever the host, the device and the environment do;
only the device's bytes change RX (60_exceptions.md R244, R269). -/
def Obligations.AbortedSessionSendsNothing : Prop :=
  ∀ (n : Nat) (s t : State), s.Inv → s.status.aborted = true → s.noReset →
    Host.Core.run Sys2Proof.core n s = .next t →
    (t.status.result = s.status.result ∨ t.status.result = .refused) ∧ s.rx <+: t.rx ∧
      t = { s with
        status := { s.status with result := t.status.result }
        mem := { s.mem with line := t.mem.line, ckb := t.mem.ckb }
        lineLen := t.lineLen, rx := t.rx, hostQ := t.hostQ, agenda := t.agenda, event := t.event, draw := t.draw }

/-- Reset, at any step, gives every piece of state its value of the reset table; CONFIG, TX and DIAG keep their contents
(10_state.md R40, 70_reset_and_hazards.md R290). -/
def Obligations.ResetGivesResetTable : Prop :=
  ∀ (s : State) (rest : List Turn), s.agenda = .reset :: rest →
    ∃ t, step s = .next t ∧
      t = {
        config := s.config
        status := { result := .none, fmtCause := .none, aborted := false, linkSynced := false, recValid := false,
                    pktValid := false, fault := .none, fmtPos := 0 }
        phase := .idle, ckacc := 0x00, record := { count := 0, addr := 0, type := 0, cks := 0 }
        pktLen := 0, respLen := 0, lineLen := 0, mem := t.mem
        rx := [], tx := s.tx, diag := s.diag
        hostQ := t.hostQ, agenda := t.agenda, event := t.event, draw := t.draw } ∧
      ∀ (sp : Space) (a : Nat), a < sp.size → t.hostReadByte sp a = .ok 0x00

/-- HEXDEC right after reset ends in FORMAT_ERROR with MISSING_MARKER, and CKSUM right after reset gives CKACC = 0x00
(70_reset_and_hazards.md R294). -/
def Obligations.FirstOperationsAfterReset : Prop :=
  exec .hexdec State.reset = .next (State.reset.afterFormatError .missingMarker 0) ∧
    ∀ n : BitVec 9, n.toNat ≤ 256 →
      exec (.cksum n) State.reset = .next { State.reset with status := { Status.reset with result := .ok } }

/-! ### The step and the whole machine -/

/-- A step runs the decoded instruction: with the host's turn next and a request word first in its queue, a step of an
idle block is exec of the word's instruction, the turn and the action taken off and the link event sampled; in SEND_WAIT
with a byte in RX, the block's step is exec of that byte's response row, the byte taken off RX and the inputs sampled
(60_exceptions.md R243, 43_transmitter.md R207; logs 3, 6). -/
def Obligations.StepRunsDecodedInstruction : Prop :=
  (∀ (s : State) (w : Word) (i : Instr) (ev : LinkEvent) (turns : List Turn) (acts : List HostAct),
    s.phase = .idle → s.agenda = .host ev :: turns → s.hostQ = .request w :: acts → decodeRequest w = .ok i →
    step s = exec i { s with agenda := turns, hostQ := acts, event := ev }) ∧
  ∀ (s : State) (b : Byte) (bs : List Byte) (i : Instr) (ev : LinkEvent) (draw : Nat) (turns : List Turn),
    s.phase = .sendWait → s.agenda = .block ev draw :: turns → ev ≠ .ioErr → s.rx = b :: bs →
    decode ⟨.rxResponse0, b.setWidth 32⟩ = .ok i →
    step s = exec i { s with agenda := turns, rx := bs, event := ev, draw := draw }

/-- The invariant holds at reset (10_state.md R40). -/
def Obligations.ResetMeetsInvariant : Prop := State.reset.Inv

/-- Every step keeps every byte space in its canonical form: addresses rising, inside the space, nothing listed that reads
as unlisted (20_memory.md R60, R61). -/
def Obligations.StepKeepsMemoryCanonical : Prop := ∀ s t : State, s.Inv → step s = .next t → t.mem.wf = true

/-- Every step keeps the relations between the control registers (10_state.md R24 to R27, 43_transmitter.md R208,
R212). -/
def Obligations.StepKeepsControlInvariant : Prop := ∀ s t : State, s.Inv → step s = .next t → ControlInv t

/-- Every step keeps PKTBUF empty or a complete packet, and a valid packet a complete one: preamble, length field, command
byte as sent, top address bytes 0, and a sum of 0 from the length field on (30_encoding.md R92, R95, R99,
42_packet_framer.md R189). -/
def Obligations.StepKeepsPacketInvariant : Prop := ∀ s t : State, s.Inv → step s = .next t → PacketInv t

/-- Every step of a state with the invariant, whose host stays inside its buffers, answers a next state of which the same
holds: no run of such a host faults, is refused or leaves the invariant (20_memory.md R61, 60_exceptions.md R260). -/
def Obligations.StepAlwaysAnswers : Prop :=
  ∀ s : State, s.Inv → s.hostInSpace = true → ∃ t, step s = .next t ∧ t.Inv ∧ t.hostInSpace = true

/-- What a step puts on TX is nothing, the one sync byte, or the whole packet in PKTBUF, which is complete; an aborted block
puts nothing there (20_memory.md R65, 30_encoding.md R99, 43_transmitter.md R204, R212). -/
def Obligations.OnlyCompletePacketsAreSent : Prop :=
  ∀ s t : State, s.Inv → step s = .next t →
    t.tx = s.tx ∨
      (s.status.aborted = false ∧ (t.tx = s.tx ++ [0x08] ∨ (packetShape s.packet ∧ t.tx = s.tx ++ s.packet)))

/-- No step changes CONFIG, and TX and DIAG only grow (10_state.md R21, R35, R36). -/
def Obligations.ConfigConstantLogsOnlyGrow : Prop :=
  ∀ s t : State, step s = .next t → t.config = s.config ∧ s.tx <+: t.tx ∧ s.diag <+: t.diag

/-- RESULT changes only where an operation ends or is refused: a step after which the block waits writes no result
(10_state.md R23, 60_exceptions.md R240). -/
def Obligations.WaitingBlockWritesNoResult : Prop :=
  ∀ s t : State, s.noResetNext → step s = .next t → t.phase ≠ .idle → t.status.result = s.status.result

/-! ### What the host reads -/

/-- STATUS and CONFIG as the host reads them have each field at its bits, and reserved bits 0; the result codes, the causes
of a FORMAT_ERROR and the phases have the numbers of their tables; the other registers read as they are (10_state.md R21 to
R24, R27, R38; 40_checksum.md R124). -/
def Obligations.StatusAndConfigWordLayout : Prop :=
  [ResultCode.none, .ok, .skip, .ack, .nack, .undefined, .formatError, .hsTimeout, .hsIoErr, .linkError, .lengthOverflow,
    .noRecord, .noPacket, .notSynced, .illegalOp, .refused].map ResultCode.code =
      [0, 1, 2, 3, 4, 5, 6, 7, 8, 9, 10, 11, 12, 13, 14, 15] ∧
  [FmtCause.none, .missingMarker, .badDigit, .truncated].map FmtCause.code = [0, 1, 2, 3] ∧
  ∀ s : State,
    let w := s.hostRead .status
    let c := s.hostRead .config
    w.extractLsb' 0 4 = s.status.result.code ∧ w.extractLsb' 4 2 = s.status.fmtCause.code ∧
      w.getLsbD 6 = s.status.aborted ∧ w.getLsbD 7 = s.status.linkSynced ∧ w.getLsbD 8 = s.status.recValid ∧
      w.getLsbD 9 = s.status.pktValid ∧ w.extractLsb' 10 6 = 0 ∧ w.extractLsb' 16 4 = s.status.fault.code ∧
      w.extractLsb' 20 10 = s.status.fmtPos ∧ w.extractLsb' 30 2 = 0 ∧
      c.getLsbD 0 = s.config.baudSel ∧ c.getLsbD 1 = s.config.hexLc ∧ c.extractLsb' 2 30 = 0 ∧
      (s.phase = .idle → s.hostRead .phase = 0) ∧ (s.phase = .sendWait → s.hostRead .phase = 1) ∧
      (s.phase = .hsWait → s.hostRead .phase = 2) ∧ (s.phase = .hsRead → s.hostRead .phase = 3) ∧
      (s.hostRead .ckacc).toNat = s.ckacc.toNat ∧ (s.hostRead .ckOut).toNat = (256 - s.ckacc.toNat) % 256 ∧
      (s.hostRead .recCount).toNat = s.record.count.toNat ∧ (s.hostRead .recAddr).toNat = s.record.addr.toNat ∧
      (s.hostRead .recType).toNat = s.record.type.toNat ∧ (s.hostRead .recCks).toNat = s.record.cks.toNat ∧
      (s.hostRead .pktLen).toNat = s.pktLen.toNat ∧ (s.hostRead .respLen).toNat = s.respLen.toNat ∧
      (s.lineLen < 2 ^ 32 → (s.hostRead .lineLen).toNat = s.lineLen)

/-! ### The host contract -/

/-- A host in cleanup gives the block no further move, whatever results it reads; a result of the handshake other than OK,
or of an Erase or line packet other than ACK, a FORMAT_ERROR, and a file that cannot be opened where a walk is requested,
bring it there, and with that decision the host gives the block nothing (60_exceptions.md R262 to R264, R267, R268;
log 26). -/
def Obligations.FailedSessionStops : Prop :=
  (∀ (h : Session) (ok : Bool) (rs : List ResultCode), h.stage = .cleanup ok →
    h.decisions rs = (h, rs.map fun _ => .stay)) ∧
  ∀ (h : Session) (r : ResultCode),
    let stops : Prop := (h.advance r).1.stage = .cleanup false ∧ (h.advance r).2 = .stay
    (h.stage = .handshakeResult → r ≠ .ok → stops) ∧
    (h.stage = .eraseResult → r ≠ .ack → stops) ∧
    (h.stage = .openFile → h.file = none → h.pending.write = true ∨ h.pending.verify = true → stops) ∧
    (∀ pass rest, h.stage = .lineDecoded pass rest → r ≠ .ok → r ≠ .skip → stops) ∧
    (∀ pass rest, h.stage = .lineResult pass rest → r ≠ .ack → stops)

/-- A session starts by resetting the block, whatever the block is waiting for. Erase leaves the pending set exactly on the
ACK of its packet (log 28), Write and Verify exactly at the end of their walks, and nothing enters it. Every decision keeps
the set consistent with the stage; BUILD_R is issued only with an empty set, and BUILD_V only when Write has left it
(60_exceptions.md R260 to R266; log 26). -/
def Obligations.RunComesAfterRequestedPhases : Prop :=
  (∀ y : System, y.host.stage = .powerOn →
    y.step = .next { host := y.host.at .handshake, block := { State.reset with
      config := y.block.config, tx := y.block.tx, diag := y.block.diag
      hostQ := [], agenda := y.block.agenda, event := y.block.event, draw := y.block.draw } }) ∧
  ∀ (h : Session) (r : ResultCode),
    ((h.advance r).1.pending.erase = true ↔ h.pending.erase = true ∧ ¬(h.stage = .eraseResult ∧ r = .ack)) ∧
    ((h.advance r).1.pending.write = true ↔ h.pending.write = true ∧ h.stage ≠ .lineLoad .write []) ∧
    ((h.advance r).1.pending.verify = true ↔ h.pending.verify = true ∧ h.stage ≠ .lineLoad .verify []) ∧
    (h.consistent → (h.advance r).1.consistent ∧
      ((h.advance r).2 = .issue .buildR → h.pending = ⟨false, false, false⟩) ∧
      ((h.advance r).2 = .issue .buildV → h.pending.write = false))

/-! ### The other agents, and runs without end -/

/-- The host's writes and the device's bytes reach their buffers and streams. With the host's turn next in an idle block,
aborted or not: a line goes to LINEBUF from 0 on with LINELEN its length, one byte or LINELEN alone where the host writes
that, bytes to CKBUF from their address on; later and earlier bytes and all else stay, the turn and the action being taken
off and the event sampled. With the device's turn next its bytes are appended to RX and nothing else changes (10_state.md
R33 to R35, R38; 30_encoding.md R85; 60_exceptions.md R260; logs 6, 25). -/
def Obligations.HostAndDeviceTurnsReachTheirParts : Prop :=
  (∀ (s : State) (ev : LinkEvent) (turns : List Turn) (acts : List HostAct),
    s.mem.wf = true → s.phase = .idle → s.agenda = .host ev :: turns →
    let taken : State := { s with agenda := turns, hostQ := acts, event := ev }
    (∀ cs, s.hostQ = .line cs :: acts → cs.length ≤ Config.maxLine →
      ∃ t, step s = .next t ∧ firstBytes t.mem.line cs.length = cs ∧
        (∀ c, cs.length ≤ c → readCell t.mem.line c = readCell s.mem.line c) ∧
        t = { taken with lineLen := cs.length, mem := { s.mem with line := t.mem.line } }) ∧
    (∀ a b, s.hostQ = .lineByte a b :: acts → a < Config.maxLine →
      ∃ t, step s = .next t ∧ readCell t.mem.line a = b ∧
        (∀ c, c ≠ a → readCell t.mem.line c = readCell s.mem.line c) ∧
        t = { taken with mem := { s.mem with line := t.mem.line } }) ∧
    (∀ n, s.hostQ = .lineLen n :: acts → n ≤ Config.maxLine → step s = .next { taken with lineLen := n }) ∧
    (∀ a bs, s.hostQ = .ckbuf a bs :: acts → a + bs.length ≤ 256 →
      ∃ t, step s = .next t ∧ (∀ i b, bs[i]? = some b → readCell t.mem.ckb (a + i) = b) ∧
        (∀ c, c < a ∨ a + bs.length ≤ c → readCell t.mem.ckb c = readCell s.mem.ckb c) ∧
        t = { taken with mem := { s.mem with ckb := t.mem.ckb } })) ∧
  ∀ (s : State) (bs : List Byte) (turns : List Turn), s.agenda = .device bs :: turns →
    step s = .next { s with agenda := turns, rx := s.rx ++ bs }

/-- The handshake wait ends in every fair run, and only a starved wait lasts. Where TIMEOUT is weakly fair, HS_WAIT ends or
RX becomes readable; where the block also keeps stepping, HS_WAIT ends; and from every point of such a run the block comes
back to IDLE, or from some point on it hangs in SEND_WAIT with RX empty or in HS_READ with fewer than 24 bytes
(43_transmitter.md R213, 70_reset_and_hazards.md R302 to R304; log 9). -/
def Obligations.FairWaitsEndOrHang : Prop :=
  (∀ (r : Run) (n : Nat), r.timeoutFair → (r.state n).phase = .hsWait →
    ∃ m, n ≤ m ∧ ((r.state m).phase ≠ .hsWait ∨ (r.state m).rx ≠ [])) ∧
  ∀ (r : Run) (n : Nat), r.fair →
    (∃ m, n ≤ m ∧ (r.state m).phase ≠ .hsWait) ∧
      ((∃ m, n ≤ m ∧ (r.state m).phase = .idle) ∨ ∃ m, n ≤ m ∧ r.hangsFrom m)
end

