-- ==== Sys2Proof/Laws/Bytes.lean ====
section
/-! SUPPORT. The laws of the byte primitives and of the operand forms: sums of sequences, lengths of spans, packets and
decoded data, the range of a draw. -/
namespace Sys2Proof.Machine

/-- A running sum is its start plus the sum of the rest. -/
theorem sumFrom_eq (acc : Byte) (s : List Byte) : sumFrom acc s = acc + sum8 s := by
  induction s generalizing acc with
  | nil => simp [sum8, sumFrom]
  | cons b bs ih =>
    simp only [sum8, sumFrom]
    rw [ih, ih (0 + b)]
    simp [BitVec.add_assoc]

@[simp] theorem sum8_nil : sum8 [] = 0 := rfl

@[simp] theorem sum8_cons (b : Byte) (bs : List Byte) : sum8 (b :: bs) = b + sum8 bs := by
  rw [sum8, sumFrom, sumFrom_eq]
  simp

@[simp] theorem sum8_append (s t : List Byte) : sum8 (s ++ t) = sum8 s + sum8 t := by
  induction s with
  | nil => simp
  | cons b bs ih => simp [ih, BitVec.add_assoc]

/-- neg8 is the two's complement negation. -/
theorem neg8_eq_neg (x : Byte) : neg8 x = -x := by
  apply BitVec.eq_of_toNat_eq
  simp [neg8, BitVec.toNat_neg]

@[simp] theorem packetSpan_length (cmd : Command) (addr : BitVec 16) (body : List Byte) :
    (packetSpan cmd addr body).length = body.length + 5 := by
  simp [packetSpan]

@[simp] theorem packetBytes_length (cmd : Command) (len : Byte) (addr : BitVec 16) (body : List Byte) :
    (packetBytes cmd len addr body).length = body.length + 9 := by
  simp [packetBytes]

/-- What a decoded run of pairs holds: one byte a pair. -/
theorem pairsAt_length (lc : Bool) (cs : List Byte) (j n : Nat) (bs : List Byte)
    (h : pairsAt lc cs j n = .ok bs) : bs.length = n := by
  induction n generalizing j bs with
  | zero =>
    have hbs : bs = [] := (Except.ok.inj h).symm
    rw [hbs]
    rfl
  | succ n ih =>
    simp only [pairsAt, bind, Except.bind, pure, Except.pure] at h
    split at h
    · cases h
    · split at h
      · cases h
      · next rest hrest =>
        cases h
        simp [ih (j + 2) rest hrest]

/-- A decoded Data line holds as many data bytes as its count. -/
theorem readData_length (lc : Bool) (cs : List Byte) (n : Nat) (d : List Byte) (cks : Byte)
    (h : readData lc cs n = .ok (d, cks)) : d.length = n := by
  cases hp : pairsAt lc cs 9 n with
  | error e => simp [readData, hp, bind, Except.bind] at h
  | ok ds =>
    cases hc : pairAt lc cs (9 + 2 * n) with
    | error e => simp [readData, hp, hc, bind, Except.bind] at h
    | ok c =>
      simp only [readData, hp, hc, bind, Except.bind, pure, Except.pure, Except.ok.injEq, Prod.mk.injEq] at h
      rw [← h.1]
      exact pairsAt_length lc cs 9 n ds hp

/-- A draw lies in 1 .. min(255, avail). -/
theorem drawCount_range (draw avail : Nat) (havail : 1 ≤ avail) :
    1 ≤ drawCount draw avail ∧ drawCount draw avail ≤ respMax ∧ drawCount draw avail ≤ avail := by
  have hpos : 0 < min respMax avail := by simp [respMax]; omega
  have hlt := Nat.mod_lt draw hpos
  have hle : draw % min respMax avail < respMax ∧ draw % min respMax avail < avail := by
    rw [Nat.lt_min] at hlt
    exact hlt
  unfold drawCount
  omega

end Sys2Proof.Machine
end

