-- ==== Sys2Proof/Laws/State.lean ====
section
/-! SUPPORT. One lemma per field per update of the state, true by unfolding, so that no proof unfolds a record update. -/
namespace Sys2Proof.Machine

section Updates
variable (s : State)

@[simp] theorem State.finish_config (r : ResultCode) :
    (s.finish r).config = s.config := rfl
@[simp] theorem State.finish_status_result (r : ResultCode) :
    (s.finish r).status.result = r := rfl
@[simp] theorem State.finish_status_fmtCause (r : ResultCode) :
    (s.finish r).status.fmtCause = s.status.fmtCause := rfl
@[simp] theorem State.finish_status_aborted (r : ResultCode) :
    (s.finish r).status.aborted = s.status.aborted := rfl
@[simp] theorem State.finish_status_linkSynced (r : ResultCode) :
    (s.finish r).status.linkSynced = s.status.linkSynced := rfl
@[simp] theorem State.finish_status_recValid (r : ResultCode) :
    (s.finish r).status.recValid = s.status.recValid := rfl
@[simp] theorem State.finish_status_pktValid (r : ResultCode) :
    (s.finish r).status.pktValid = s.status.pktValid := rfl
@[simp] theorem State.finish_status_fault (r : ResultCode) :
    (s.finish r).status.fault = s.status.fault := rfl
@[simp] theorem State.finish_status_fmtPos (r : ResultCode) :
    (s.finish r).status.fmtPos = s.status.fmtPos := rfl
@[simp] theorem State.finish_phase (r : ResultCode) :
    (s.finish r).phase = s.phase := rfl
@[simp] theorem State.finish_ckacc (r : ResultCode) :
    (s.finish r).ckacc = s.ckacc := rfl
@[simp] theorem State.finish_record (r : ResultCode) :
    (s.finish r).record = s.record := rfl
@[simp] theorem State.finish_pktLen (r : ResultCode) :
    (s.finish r).pktLen = s.pktLen := rfl
@[simp] theorem State.finish_respLen (r : ResultCode) :
    (s.finish r).respLen = s.respLen := rfl
@[simp] theorem State.finish_lineLen (r : ResultCode) :
    (s.finish r).lineLen = s.lineLen := rfl
@[simp] theorem State.finish_mem (r : ResultCode) :
    (s.finish r).mem = s.mem := rfl
@[simp] theorem State.finish_rx (r : ResultCode) :
    (s.finish r).rx = s.rx := rfl
@[simp] theorem State.finish_tx (r : ResultCode) :
    (s.finish r).tx = s.tx := rfl
@[simp] theorem State.finish_diag (r : ResultCode) :
    (s.finish r).diag = s.diag := rfl
@[simp] theorem State.finish_hostQ (r : ResultCode) :
    (s.finish r).hostQ = s.hostQ := rfl
@[simp] theorem State.finish_agenda (r : ResultCode) :
    (s.finish r).agenda = s.agenda := rfl
@[simp] theorem State.finish_event (r : ResultCode) :
    (s.finish r).event = s.event := rfl
@[simp] theorem State.finish_draw (r : ResultCode) :
    (s.finish r).draw = s.draw := rfl

@[simp] theorem State.refuse_config :
    (s.refuse).config = s.config := rfl
@[simp] theorem State.refuse_status_result :
    (s.refuse).status.result = .refused := rfl
@[simp] theorem State.refuse_status_fmtCause :
    (s.refuse).status.fmtCause = s.status.fmtCause := rfl
@[simp] theorem State.refuse_status_aborted :
    (s.refuse).status.aborted = s.status.aborted := rfl
@[simp] theorem State.refuse_status_linkSynced :
    (s.refuse).status.linkSynced = s.status.linkSynced := rfl
@[simp] theorem State.refuse_status_recValid :
    (s.refuse).status.recValid = s.status.recValid := rfl
@[simp] theorem State.refuse_status_pktValid :
    (s.refuse).status.pktValid = s.status.pktValid := rfl
@[simp] theorem State.refuse_status_fault :
    (s.refuse).status.fault = s.status.fault := rfl
@[simp] theorem State.refuse_status_fmtPos :
    (s.refuse).status.fmtPos = s.status.fmtPos := rfl
@[simp] theorem State.refuse_phase :
    (s.refuse).phase = s.phase := rfl
@[simp] theorem State.refuse_ckacc :
    (s.refuse).ckacc = s.ckacc := rfl
@[simp] theorem State.refuse_record :
    (s.refuse).record = s.record := rfl
@[simp] theorem State.refuse_pktLen :
    (s.refuse).pktLen = s.pktLen := rfl
@[simp] theorem State.refuse_respLen :
    (s.refuse).respLen = s.respLen := rfl
@[simp] theorem State.refuse_lineLen :
    (s.refuse).lineLen = s.lineLen := rfl
@[simp] theorem State.refuse_mem :
    (s.refuse).mem = s.mem := rfl
@[simp] theorem State.refuse_rx :
    (s.refuse).rx = s.rx := rfl
@[simp] theorem State.refuse_tx :
    (s.refuse).tx = s.tx := rfl
@[simp] theorem State.refuse_diag :
    (s.refuse).diag = s.diag := rfl
@[simp] theorem State.refuse_hostQ :
    (s.refuse).hostQ = s.hostQ := rfl
@[simp] theorem State.refuse_agenda :
    (s.refuse).agenda = s.agenda := rfl
@[simp] theorem State.refuse_event :
    (s.refuse).event = s.event := rfl
@[simp] theorem State.refuse_draw :
    (s.refuse).draw = s.draw := rfl

@[simp] theorem State.fatal_config (c : ResultCode) :
    (s.fatal c).config = s.config := rfl
@[simp] theorem State.fatal_status_result (c : ResultCode) :
    (s.fatal c).status.result = c := rfl
@[simp] theorem State.fatal_status_fmtCause (c : ResultCode) :
    (s.fatal c).status.fmtCause = s.status.fmtCause := rfl
@[simp] theorem State.fatal_status_aborted (c : ResultCode) :
    (s.fatal c).status.aborted = true := rfl
@[simp] theorem State.fatal_status_linkSynced (c : ResultCode) :
    (s.fatal c).status.linkSynced = s.status.linkSynced := rfl
@[simp] theorem State.fatal_status_recValid (c : ResultCode) :
    (s.fatal c).status.recValid = s.status.recValid := rfl
@[simp] theorem State.fatal_status_pktValid (c : ResultCode) :
    (s.fatal c).status.pktValid = s.status.pktValid := rfl
@[simp] theorem State.fatal_status_fault (c : ResultCode) :
    (s.fatal c).status.fault = if s.status.aborted then s.status.fault else c := rfl
@[simp] theorem State.fatal_status_fmtPos (c : ResultCode) :
    (s.fatal c).status.fmtPos = s.status.fmtPos := rfl
@[simp] theorem State.fatal_phase (c : ResultCode) :
    (s.fatal c).phase = .idle := rfl
@[simp] theorem State.fatal_ckacc (c : ResultCode) :
    (s.fatal c).ckacc = s.ckacc := rfl
@[simp] theorem State.fatal_record (c : ResultCode) :
    (s.fatal c).record = s.record := rfl
@[simp] theorem State.fatal_pktLen (c : ResultCode) :
    (s.fatal c).pktLen = s.pktLen := rfl
@[simp] theorem State.fatal_respLen (c : ResultCode) :
    (s.fatal c).respLen = s.respLen := rfl
@[simp] theorem State.fatal_lineLen (c : ResultCode) :
    (s.fatal c).lineLen = s.lineLen := rfl
@[simp] theorem State.fatal_mem (c : ResultCode) :
    (s.fatal c).mem = s.mem := rfl
@[simp] theorem State.fatal_rx (c : ResultCode) :
    (s.fatal c).rx = s.rx := rfl
@[simp] theorem State.fatal_tx (c : ResultCode) :
    (s.fatal c).tx = s.tx := rfl
@[simp] theorem State.fatal_diag (c : ResultCode) :
    (s.fatal c).diag = s.diag := rfl
@[simp] theorem State.fatal_hostQ (c : ResultCode) :
    (s.fatal c).hostQ = s.hostQ := rfl
@[simp] theorem State.fatal_agenda (c : ResultCode) :
    (s.fatal c).agenda = s.agenda := rfl
@[simp] theorem State.fatal_event (c : ResultCode) :
    (s.fatal c).event = s.event := rfl
@[simp] theorem State.fatal_draw (c : ResultCode) :
    (s.fatal c).draw = s.draw := rfl

@[simp] theorem State.setLinkSynced_config (v : Bool) :
    (s.setLinkSynced v).config = s.config := rfl
@[simp] theorem State.setLinkSynced_status_result (v : Bool) :
    (s.setLinkSynced v).status.result = s.status.result := rfl
@[simp] theorem State.setLinkSynced_status_fmtCause (v : Bool) :
    (s.setLinkSynced v).status.fmtCause = s.status.fmtCause := rfl
@[simp] theorem State.setLinkSynced_status_aborted (v : Bool) :
    (s.setLinkSynced v).status.aborted = s.status.aborted := rfl
@[simp] theorem State.setLinkSynced_status_linkSynced (v : Bool) :
    (s.setLinkSynced v).status.linkSynced = v := rfl
@[simp] theorem State.setLinkSynced_status_recValid (v : Bool) :
    (s.setLinkSynced v).status.recValid = s.status.recValid := rfl
@[simp] theorem State.setLinkSynced_status_pktValid (v : Bool) :
    (s.setLinkSynced v).status.pktValid = s.status.pktValid := rfl
@[simp] theorem State.setLinkSynced_status_fault (v : Bool) :
    (s.setLinkSynced v).status.fault = s.status.fault := rfl
@[simp] theorem State.setLinkSynced_status_fmtPos (v : Bool) :
    (s.setLinkSynced v).status.fmtPos = s.status.fmtPos := rfl
@[simp] theorem State.setLinkSynced_phase (v : Bool) :
    (s.setLinkSynced v).phase = s.phase := rfl
@[simp] theorem State.setLinkSynced_ckacc (v : Bool) :
    (s.setLinkSynced v).ckacc = s.ckacc := rfl
@[simp] theorem State.setLinkSynced_record (v : Bool) :
    (s.setLinkSynced v).record = s.record := rfl
@[simp] theorem State.setLinkSynced_pktLen (v : Bool) :
    (s.setLinkSynced v).pktLen = s.pktLen := rfl
@[simp] theorem State.setLinkSynced_respLen (v : Bool) :
    (s.setLinkSynced v).respLen = s.respLen := rfl
@[simp] theorem State.setLinkSynced_lineLen (v : Bool) :
    (s.setLinkSynced v).lineLen = s.lineLen := rfl
@[simp] theorem State.setLinkSynced_mem (v : Bool) :
    (s.setLinkSynced v).mem = s.mem := rfl
@[simp] theorem State.setLinkSynced_rx (v : Bool) :
    (s.setLinkSynced v).rx = s.rx := rfl
@[simp] theorem State.setLinkSynced_tx (v : Bool) :
    (s.setLinkSynced v).tx = s.tx := rfl
@[simp] theorem State.setLinkSynced_diag (v : Bool) :
    (s.setLinkSynced v).diag = s.diag := rfl
@[simp] theorem State.setLinkSynced_hostQ (v : Bool) :
    (s.setLinkSynced v).hostQ = s.hostQ := rfl
@[simp] theorem State.setLinkSynced_agenda (v : Bool) :
    (s.setLinkSynced v).agenda = s.agenda := rfl
@[simp] theorem State.setLinkSynced_event (v : Bool) :
    (s.setLinkSynced v).event = s.event := rfl
@[simp] theorem State.setLinkSynced_draw (v : Bool) :
    (s.setLinkSynced v).draw = s.draw := rfl

@[simp] theorem State.setRecValid_config (v : Bool) :
    (s.setRecValid v).config = s.config := rfl
@[simp] theorem State.setRecValid_status_result (v : Bool) :
    (s.setRecValid v).status.result = s.status.result := rfl
@[simp] theorem State.setRecValid_status_fmtCause (v : Bool) :
    (s.setRecValid v).status.fmtCause = s.status.fmtCause := rfl
@[simp] theorem State.setRecValid_status_aborted (v : Bool) :
    (s.setRecValid v).status.aborted = s.status.aborted := rfl
@[simp] theorem State.setRecValid_status_linkSynced (v : Bool) :
    (s.setRecValid v).status.linkSynced = s.status.linkSynced := rfl
@[simp] theorem State.setRecValid_status_recValid (v : Bool) :
    (s.setRecValid v).status.recValid = v := rfl
@[simp] theorem State.setRecValid_status_pktValid (v : Bool) :
    (s.setRecValid v).status.pktValid = s.status.pktValid := rfl
@[simp] theorem State.setRecValid_status_fault (v : Bool) :
    (s.setRecValid v).status.fault = s.status.fault := rfl
@[simp] theorem State.setRecValid_status_fmtPos (v : Bool) :
    (s.setRecValid v).status.fmtPos = s.status.fmtPos := rfl
@[simp] theorem State.setRecValid_phase (v : Bool) :
    (s.setRecValid v).phase = s.phase := rfl
@[simp] theorem State.setRecValid_ckacc (v : Bool) :
    (s.setRecValid v).ckacc = s.ckacc := rfl
@[simp] theorem State.setRecValid_record (v : Bool) :
    (s.setRecValid v).record = s.record := rfl
@[simp] theorem State.setRecValid_pktLen (v : Bool) :
    (s.setRecValid v).pktLen = s.pktLen := rfl
@[simp] theorem State.setRecValid_respLen (v : Bool) :
    (s.setRecValid v).respLen = s.respLen := rfl
@[simp] theorem State.setRecValid_lineLen (v : Bool) :
    (s.setRecValid v).lineLen = s.lineLen := rfl
@[simp] theorem State.setRecValid_mem (v : Bool) :
    (s.setRecValid v).mem = s.mem := rfl
@[simp] theorem State.setRecValid_rx (v : Bool) :
    (s.setRecValid v).rx = s.rx := rfl
@[simp] theorem State.setRecValid_tx (v : Bool) :
    (s.setRecValid v).tx = s.tx := rfl
@[simp] theorem State.setRecValid_diag (v : Bool) :
    (s.setRecValid v).diag = s.diag := rfl
@[simp] theorem State.setRecValid_hostQ (v : Bool) :
    (s.setRecValid v).hostQ = s.hostQ := rfl
@[simp] theorem State.setRecValid_agenda (v : Bool) :
    (s.setRecValid v).agenda = s.agenda := rfl
@[simp] theorem State.setRecValid_event (v : Bool) :
    (s.setRecValid v).event = s.event := rfl
@[simp] theorem State.setRecValid_draw (v : Bool) :
    (s.setRecValid v).draw = s.draw := rfl

@[simp] theorem State.setPktValid_config (v : Bool) :
    (s.setPktValid v).config = s.config := rfl
@[simp] theorem State.setPktValid_status_result (v : Bool) :
    (s.setPktValid v).status.result = s.status.result := rfl
@[simp] theorem State.setPktValid_status_fmtCause (v : Bool) :
    (s.setPktValid v).status.fmtCause = s.status.fmtCause := rfl
@[simp] theorem State.setPktValid_status_aborted (v : Bool) :
    (s.setPktValid v).status.aborted = s.status.aborted := rfl
@[simp] theorem State.setPktValid_status_linkSynced (v : Bool) :
    (s.setPktValid v).status.linkSynced = s.status.linkSynced := rfl
@[simp] theorem State.setPktValid_status_recValid (v : Bool) :
    (s.setPktValid v).status.recValid = s.status.recValid := rfl
@[simp] theorem State.setPktValid_status_pktValid (v : Bool) :
    (s.setPktValid v).status.pktValid = v := rfl
@[simp] theorem State.setPktValid_status_fault (v : Bool) :
    (s.setPktValid v).status.fault = s.status.fault := rfl
@[simp] theorem State.setPktValid_status_fmtPos (v : Bool) :
    (s.setPktValid v).status.fmtPos = s.status.fmtPos := rfl
@[simp] theorem State.setPktValid_phase (v : Bool) :
    (s.setPktValid v).phase = s.phase := rfl
@[simp] theorem State.setPktValid_ckacc (v : Bool) :
    (s.setPktValid v).ckacc = s.ckacc := rfl
@[simp] theorem State.setPktValid_record (v : Bool) :
    (s.setPktValid v).record = s.record := rfl
@[simp] theorem State.setPktValid_pktLen (v : Bool) :
    (s.setPktValid v).pktLen = s.pktLen := rfl
@[simp] theorem State.setPktValid_respLen (v : Bool) :
    (s.setPktValid v).respLen = s.respLen := rfl
@[simp] theorem State.setPktValid_lineLen (v : Bool) :
    (s.setPktValid v).lineLen = s.lineLen := rfl
@[simp] theorem State.setPktValid_mem (v : Bool) :
    (s.setPktValid v).mem = s.mem := rfl
@[simp] theorem State.setPktValid_rx (v : Bool) :
    (s.setPktValid v).rx = s.rx := rfl
@[simp] theorem State.setPktValid_tx (v : Bool) :
    (s.setPktValid v).tx = s.tx := rfl
@[simp] theorem State.setPktValid_diag (v : Bool) :
    (s.setPktValid v).diag = s.diag := rfl
@[simp] theorem State.setPktValid_hostQ (v : Bool) :
    (s.setPktValid v).hostQ = s.hostQ := rfl
@[simp] theorem State.setPktValid_agenda (v : Bool) :
    (s.setPktValid v).agenda = s.agenda := rfl
@[simp] theorem State.setPktValid_event (v : Bool) :
    (s.setPktValid v).event = s.event := rfl
@[simp] theorem State.setPktValid_draw (v : Bool) :
    (s.setPktValid v).draw = s.draw := rfl

@[simp] theorem State.setFormat_config (c : FmtCause) (p : Nat) :
    (s.setFormat c p).config = s.config := rfl
@[simp] theorem State.setFormat_status_result (c : FmtCause) (p : Nat) :
    (s.setFormat c p).status.result = s.status.result := rfl
@[simp] theorem State.setFormat_status_fmtCause (c : FmtCause) (p : Nat) :
    (s.setFormat c p).status.fmtCause = c := rfl
@[simp] theorem State.setFormat_status_aborted (c : FmtCause) (p : Nat) :
    (s.setFormat c p).status.aborted = s.status.aborted := rfl
@[simp] theorem State.setFormat_status_linkSynced (c : FmtCause) (p : Nat) :
    (s.setFormat c p).status.linkSynced = s.status.linkSynced := rfl
@[simp] theorem State.setFormat_status_recValid (c : FmtCause) (p : Nat) :
    (s.setFormat c p).status.recValid = s.status.recValid := rfl
@[simp] theorem State.setFormat_status_pktValid (c : FmtCause) (p : Nat) :
    (s.setFormat c p).status.pktValid = s.status.pktValid := rfl
@[simp] theorem State.setFormat_status_fault (c : FmtCause) (p : Nat) :
    (s.setFormat c p).status.fault = s.status.fault := rfl
@[simp] theorem State.setFormat_status_fmtPos (c : FmtCause) (p : Nat) :
    (s.setFormat c p).status.fmtPos = BitVec.ofNat 10 p := rfl
@[simp] theorem State.setFormat_phase (c : FmtCause) (p : Nat) :
    (s.setFormat c p).phase = s.phase := rfl
@[simp] theorem State.setFormat_ckacc (c : FmtCause) (p : Nat) :
    (s.setFormat c p).ckacc = s.ckacc := rfl
@[simp] theorem State.setFormat_record (c : FmtCause) (p : Nat) :
    (s.setFormat c p).record = s.record := rfl
@[simp] theorem State.setFormat_pktLen (c : FmtCause) (p : Nat) :
    (s.setFormat c p).pktLen = s.pktLen := rfl
@[simp] theorem State.setFormat_respLen (c : FmtCause) (p : Nat) :
    (s.setFormat c p).respLen = s.respLen := rfl
@[simp] theorem State.setFormat_lineLen (c : FmtCause) (p : Nat) :
    (s.setFormat c p).lineLen = s.lineLen := rfl
@[simp] theorem State.setFormat_mem (c : FmtCause) (p : Nat) :
    (s.setFormat c p).mem = s.mem := rfl
@[simp] theorem State.setFormat_rx (c : FmtCause) (p : Nat) :
    (s.setFormat c p).rx = s.rx := rfl
@[simp] theorem State.setFormat_tx (c : FmtCause) (p : Nat) :
    (s.setFormat c p).tx = s.tx := rfl
@[simp] theorem State.setFormat_diag (c : FmtCause) (p : Nat) :
    (s.setFormat c p).diag = s.diag := rfl
@[simp] theorem State.setFormat_hostQ (c : FmtCause) (p : Nat) :
    (s.setFormat c p).hostQ = s.hostQ := rfl
@[simp] theorem State.setFormat_agenda (c : FmtCause) (p : Nat) :
    (s.setFormat c p).agenda = s.agenda := rfl
@[simp] theorem State.setFormat_event (c : FmtCause) (p : Nat) :
    (s.setFormat c p).event = s.event := rfl
@[simp] theorem State.setFormat_draw (c : FmtCause) (p : Nat) :
    (s.setFormat c p).draw = s.draw := rfl

@[simp] theorem State.writeLine_config (a : Nat) (bs : List Byte) :
    (s.writeLine a bs).config = s.config := rfl
@[simp] theorem State.writeLine_status (a : Nat) (bs : List Byte) :
    (s.writeLine a bs).status = s.status := rfl
@[simp] theorem State.writeLine_phase (a : Nat) (bs : List Byte) :
    (s.writeLine a bs).phase = s.phase := rfl
@[simp] theorem State.writeLine_ckacc (a : Nat) (bs : List Byte) :
    (s.writeLine a bs).ckacc = s.ckacc := rfl
@[simp] theorem State.writeLine_record (a : Nat) (bs : List Byte) :
    (s.writeLine a bs).record = s.record := rfl
@[simp] theorem State.writeLine_pktLen (a : Nat) (bs : List Byte) :
    (s.writeLine a bs).pktLen = s.pktLen := rfl
@[simp] theorem State.writeLine_respLen (a : Nat) (bs : List Byte) :
    (s.writeLine a bs).respLen = s.respLen := rfl
@[simp] theorem State.writeLine_lineLen (a : Nat) (bs : List Byte) :
    (s.writeLine a bs).lineLen = s.lineLen := rfl
@[simp] theorem State.writeLine_mem (a : Nat) (bs : List Byte) :
    (s.writeLine a bs).mem = { s.mem with line := writeBytes s.mem.line a bs } := rfl
@[simp] theorem State.writeLine_rx (a : Nat) (bs : List Byte) :
    (s.writeLine a bs).rx = s.rx := rfl
@[simp] theorem State.writeLine_tx (a : Nat) (bs : List Byte) :
    (s.writeLine a bs).tx = s.tx := rfl
@[simp] theorem State.writeLine_diag (a : Nat) (bs : List Byte) :
    (s.writeLine a bs).diag = s.diag := rfl
@[simp] theorem State.writeLine_hostQ (a : Nat) (bs : List Byte) :
    (s.writeLine a bs).hostQ = s.hostQ := rfl
@[simp] theorem State.writeLine_agenda (a : Nat) (bs : List Byte) :
    (s.writeLine a bs).agenda = s.agenda := rfl
@[simp] theorem State.writeLine_event (a : Nat) (bs : List Byte) :
    (s.writeLine a bs).event = s.event := rfl
@[simp] theorem State.writeLine_draw (a : Nat) (bs : List Byte) :
    (s.writeLine a bs).draw = s.draw := rfl

@[simp] theorem State.writeCkb_config (a : Nat) (bs : List Byte) :
    (s.writeCkb a bs).config = s.config := rfl
@[simp] theorem State.writeCkb_status (a : Nat) (bs : List Byte) :
    (s.writeCkb a bs).status = s.status := rfl
@[simp] theorem State.writeCkb_phase (a : Nat) (bs : List Byte) :
    (s.writeCkb a bs).phase = s.phase := rfl
@[simp] theorem State.writeCkb_ckacc (a : Nat) (bs : List Byte) :
    (s.writeCkb a bs).ckacc = s.ckacc := rfl
@[simp] theorem State.writeCkb_record (a : Nat) (bs : List Byte) :
    (s.writeCkb a bs).record = s.record := rfl
@[simp] theorem State.writeCkb_pktLen (a : Nat) (bs : List Byte) :
    (s.writeCkb a bs).pktLen = s.pktLen := rfl
@[simp] theorem State.writeCkb_respLen (a : Nat) (bs : List Byte) :
    (s.writeCkb a bs).respLen = s.respLen := rfl
@[simp] theorem State.writeCkb_lineLen (a : Nat) (bs : List Byte) :
    (s.writeCkb a bs).lineLen = s.lineLen := rfl
@[simp] theorem State.writeCkb_mem (a : Nat) (bs : List Byte) :
    (s.writeCkb a bs).mem = { s.mem with ckb := writeBytes s.mem.ckb a bs } := rfl
@[simp] theorem State.writeCkb_rx (a : Nat) (bs : List Byte) :
    (s.writeCkb a bs).rx = s.rx := rfl
@[simp] theorem State.writeCkb_tx (a : Nat) (bs : List Byte) :
    (s.writeCkb a bs).tx = s.tx := rfl
@[simp] theorem State.writeCkb_diag (a : Nat) (bs : List Byte) :
    (s.writeCkb a bs).diag = s.diag := rfl
@[simp] theorem State.writeCkb_hostQ (a : Nat) (bs : List Byte) :
    (s.writeCkb a bs).hostQ = s.hostQ := rfl
@[simp] theorem State.writeCkb_agenda (a : Nat) (bs : List Byte) :
    (s.writeCkb a bs).agenda = s.agenda := rfl
@[simp] theorem State.writeCkb_event (a : Nat) (bs : List Byte) :
    (s.writeCkb a bs).event = s.event := rfl
@[simp] theorem State.writeCkb_draw (a : Nat) (bs : List Byte) :
    (s.writeCkb a bs).draw = s.draw := rfl

@[simp] theorem State.writePkt_config (a : Nat) (bs : List Byte) :
    (s.writePkt a bs).config = s.config := rfl
@[simp] theorem State.writePkt_status (a : Nat) (bs : List Byte) :
    (s.writePkt a bs).status = s.status := rfl
@[simp] theorem State.writePkt_phase (a : Nat) (bs : List Byte) :
    (s.writePkt a bs).phase = s.phase := rfl
@[simp] theorem State.writePkt_ckacc (a : Nat) (bs : List Byte) :
    (s.writePkt a bs).ckacc = s.ckacc := rfl
@[simp] theorem State.writePkt_record (a : Nat) (bs : List Byte) :
    (s.writePkt a bs).record = s.record := rfl
@[simp] theorem State.writePkt_pktLen (a : Nat) (bs : List Byte) :
    (s.writePkt a bs).pktLen = s.pktLen := rfl
@[simp] theorem State.writePkt_respLen (a : Nat) (bs : List Byte) :
    (s.writePkt a bs).respLen = s.respLen := rfl
@[simp] theorem State.writePkt_lineLen (a : Nat) (bs : List Byte) :
    (s.writePkt a bs).lineLen = s.lineLen := rfl
@[simp] theorem State.writePkt_mem (a : Nat) (bs : List Byte) :
    (s.writePkt a bs).mem = { s.mem with pkt := writeBytes s.mem.pkt a bs } := rfl
@[simp] theorem State.writePkt_rx (a : Nat) (bs : List Byte) :
    (s.writePkt a bs).rx = s.rx := rfl
@[simp] theorem State.writePkt_tx (a : Nat) (bs : List Byte) :
    (s.writePkt a bs).tx = s.tx := rfl
@[simp] theorem State.writePkt_diag (a : Nat) (bs : List Byte) :
    (s.writePkt a bs).diag = s.diag := rfl
@[simp] theorem State.writePkt_hostQ (a : Nat) (bs : List Byte) :
    (s.writePkt a bs).hostQ = s.hostQ := rfl
@[simp] theorem State.writePkt_agenda (a : Nat) (bs : List Byte) :
    (s.writePkt a bs).agenda = s.agenda := rfl
@[simp] theorem State.writePkt_event (a : Nat) (bs : List Byte) :
    (s.writePkt a bs).event = s.event := rfl
@[simp] theorem State.writePkt_draw (a : Nat) (bs : List Byte) :
    (s.writePkt a bs).draw = s.draw := rfl

@[simp] theorem State.writeRecd_config (bs : List Byte) :
    (s.writeRecd bs).config = s.config := rfl
@[simp] theorem State.writeRecd_status (bs : List Byte) :
    (s.writeRecd bs).status = s.status := rfl
@[simp] theorem State.writeRecd_phase (bs : List Byte) :
    (s.writeRecd bs).phase = s.phase := rfl
@[simp] theorem State.writeRecd_ckacc (bs : List Byte) :
    (s.writeRecd bs).ckacc = s.ckacc := rfl
@[simp] theorem State.writeRecd_record (bs : List Byte) :
    (s.writeRecd bs).record = s.record := rfl
@[simp] theorem State.writeRecd_pktLen (bs : List Byte) :
    (s.writeRecd bs).pktLen = s.pktLen := rfl
@[simp] theorem State.writeRecd_respLen (bs : List Byte) :
    (s.writeRecd bs).respLen = s.respLen := rfl
@[simp] theorem State.writeRecd_lineLen (bs : List Byte) :
    (s.writeRecd bs).lineLen = s.lineLen := rfl
@[simp] theorem State.writeRecd_mem (bs : List Byte) :
    (s.writeRecd bs).mem = { s.mem with recd := writeBytes s.mem.recd 0 bs } := rfl
@[simp] theorem State.writeRecd_rx (bs : List Byte) :
    (s.writeRecd bs).rx = s.rx := rfl
@[simp] theorem State.writeRecd_tx (bs : List Byte) :
    (s.writeRecd bs).tx = s.tx := rfl
@[simp] theorem State.writeRecd_diag (bs : List Byte) :
    (s.writeRecd bs).diag = s.diag := rfl
@[simp] theorem State.writeRecd_hostQ (bs : List Byte) :
    (s.writeRecd bs).hostQ = s.hostQ := rfl
@[simp] theorem State.writeRecd_agenda (bs : List Byte) :
    (s.writeRecd bs).agenda = s.agenda := rfl
@[simp] theorem State.writeRecd_event (bs : List Byte) :
    (s.writeRecd bs).event = s.event := rfl
@[simp] theorem State.writeRecd_draw (bs : List Byte) :
    (s.writeRecd bs).draw = s.draw := rfl

@[simp] theorem State.writeResp_config (bs : List Byte) :
    (s.writeResp bs).config = s.config := rfl
@[simp] theorem State.writeResp_status (bs : List Byte) :
    (s.writeResp bs).status = s.status := rfl
@[simp] theorem State.writeResp_phase (bs : List Byte) :
    (s.writeResp bs).phase = s.phase := rfl
@[simp] theorem State.writeResp_ckacc (bs : List Byte) :
    (s.writeResp bs).ckacc = s.ckacc := rfl
@[simp] theorem State.writeResp_record (bs : List Byte) :
    (s.writeResp bs).record = s.record := rfl
@[simp] theorem State.writeResp_pktLen (bs : List Byte) :
    (s.writeResp bs).pktLen = s.pktLen := rfl
@[simp] theorem State.writeResp_respLen (bs : List Byte) :
    (s.writeResp bs).respLen = s.respLen := rfl
@[simp] theorem State.writeResp_lineLen (bs : List Byte) :
    (s.writeResp bs).lineLen = s.lineLen := rfl
@[simp] theorem State.writeResp_mem (bs : List Byte) :
    (s.writeResp bs).mem = { s.mem with resp := writeBytes s.mem.resp 0 bs } := rfl
@[simp] theorem State.writeResp_rx (bs : List Byte) :
    (s.writeResp bs).rx = s.rx := rfl
@[simp] theorem State.writeResp_tx (bs : List Byte) :
    (s.writeResp bs).tx = s.tx := rfl
@[simp] theorem State.writeResp_diag (bs : List Byte) :
    (s.writeResp bs).diag = s.diag := rfl
@[simp] theorem State.writeResp_hostQ (bs : List Byte) :
    (s.writeResp bs).hostQ = s.hostQ := rfl
@[simp] theorem State.writeResp_agenda (bs : List Byte) :
    (s.writeResp bs).agenda = s.agenda := rfl
@[simp] theorem State.writeResp_event (bs : List Byte) :
    (s.writeResp bs).event = s.event := rfl
@[simp] theorem State.writeResp_draw (bs : List Byte) :
    (s.writeResp bs).draw = s.draw := rfl

@[simp] theorem State.writeDid_config (bs : List Byte) :
    (s.writeDid bs).config = s.config := rfl
@[simp] theorem State.writeDid_status (bs : List Byte) :
    (s.writeDid bs).status = s.status := rfl
@[simp] theorem State.writeDid_phase (bs : List Byte) :
    (s.writeDid bs).phase = s.phase := rfl
@[simp] theorem State.writeDid_ckacc (bs : List Byte) :
    (s.writeDid bs).ckacc = s.ckacc := rfl
@[simp] theorem State.writeDid_record (bs : List Byte) :
    (s.writeDid bs).record = s.record := rfl
@[simp] theorem State.writeDid_pktLen (bs : List Byte) :
    (s.writeDid bs).pktLen = s.pktLen := rfl
@[simp] theorem State.writeDid_respLen (bs : List Byte) :
    (s.writeDid bs).respLen = s.respLen := rfl
@[simp] theorem State.writeDid_lineLen (bs : List Byte) :
    (s.writeDid bs).lineLen = s.lineLen := rfl
@[simp] theorem State.writeDid_mem (bs : List Byte) :
    (s.writeDid bs).mem = { s.mem with did := writeBytes s.mem.did 0 bs } := rfl
@[simp] theorem State.writeDid_rx (bs : List Byte) :
    (s.writeDid bs).rx = s.rx := rfl
@[simp] theorem State.writeDid_tx (bs : List Byte) :
    (s.writeDid bs).tx = s.tx := rfl
@[simp] theorem State.writeDid_diag (bs : List Byte) :
    (s.writeDid bs).diag = s.diag := rfl
@[simp] theorem State.writeDid_hostQ (bs : List Byte) :
    (s.writeDid bs).hostQ = s.hostQ := rfl
@[simp] theorem State.writeDid_agenda (bs : List Byte) :
    (s.writeDid bs).agenda = s.agenda := rfl
@[simp] theorem State.writeDid_event (bs : List Byte) :
    (s.writeDid bs).event = s.event := rfl
@[simp] theorem State.writeDid_draw (bs : List Byte) :
    (s.writeDid bs).draw = s.draw := rfl

@[simp] theorem State.setCkacc_config (v : Byte) :
    (s.setCkacc v).config = s.config := rfl
@[simp] theorem State.setCkacc_status (v : Byte) :
    (s.setCkacc v).status = s.status := rfl
@[simp] theorem State.setCkacc_phase (v : Byte) :
    (s.setCkacc v).phase = s.phase := rfl
@[simp] theorem State.setCkacc_ckacc (v : Byte) :
    (s.setCkacc v).ckacc = v := rfl
@[simp] theorem State.setCkacc_record (v : Byte) :
    (s.setCkacc v).record = s.record := rfl
@[simp] theorem State.setCkacc_pktLen (v : Byte) :
    (s.setCkacc v).pktLen = s.pktLen := rfl
@[simp] theorem State.setCkacc_respLen (v : Byte) :
    (s.setCkacc v).respLen = s.respLen := rfl
@[simp] theorem State.setCkacc_lineLen (v : Byte) :
    (s.setCkacc v).lineLen = s.lineLen := rfl
@[simp] theorem State.setCkacc_mem (v : Byte) :
    (s.setCkacc v).mem = s.mem := rfl
@[simp] theorem State.setCkacc_rx (v : Byte) :
    (s.setCkacc v).rx = s.rx := rfl
@[simp] theorem State.setCkacc_tx (v : Byte) :
    (s.setCkacc v).tx = s.tx := rfl
@[simp] theorem State.setCkacc_diag (v : Byte) :
    (s.setCkacc v).diag = s.diag := rfl
@[simp] theorem State.setCkacc_hostQ (v : Byte) :
    (s.setCkacc v).hostQ = s.hostQ := rfl
@[simp] theorem State.setCkacc_agenda (v : Byte) :
    (s.setCkacc v).agenda = s.agenda := rfl
@[simp] theorem State.setCkacc_event (v : Byte) :
    (s.setCkacc v).event = s.event := rfl
@[simp] theorem State.setCkacc_draw (v : Byte) :
    (s.setCkacc v).draw = s.draw := rfl

@[simp] theorem State.setPhase_config (p : Phase) :
    (s.setPhase p).config = s.config := rfl
@[simp] theorem State.setPhase_status (p : Phase) :
    (s.setPhase p).status = s.status := rfl
@[simp] theorem State.setPhase_phase (p : Phase) :
    (s.setPhase p).phase = p := rfl
@[simp] theorem State.setPhase_ckacc (p : Phase) :
    (s.setPhase p).ckacc = s.ckacc := rfl
@[simp] theorem State.setPhase_record (p : Phase) :
    (s.setPhase p).record = s.record := rfl
@[simp] theorem State.setPhase_pktLen (p : Phase) :
    (s.setPhase p).pktLen = s.pktLen := rfl
@[simp] theorem State.setPhase_respLen (p : Phase) :
    (s.setPhase p).respLen = s.respLen := rfl
@[simp] theorem State.setPhase_lineLen (p : Phase) :
    (s.setPhase p).lineLen = s.lineLen := rfl
@[simp] theorem State.setPhase_mem (p : Phase) :
    (s.setPhase p).mem = s.mem := rfl
@[simp] theorem State.setPhase_rx (p : Phase) :
    (s.setPhase p).rx = s.rx := rfl
@[simp] theorem State.setPhase_tx (p : Phase) :
    (s.setPhase p).tx = s.tx := rfl
@[simp] theorem State.setPhase_diag (p : Phase) :
    (s.setPhase p).diag = s.diag := rfl
@[simp] theorem State.setPhase_hostQ (p : Phase) :
    (s.setPhase p).hostQ = s.hostQ := rfl
@[simp] theorem State.setPhase_agenda (p : Phase) :
    (s.setPhase p).agenda = s.agenda := rfl
@[simp] theorem State.setPhase_event (p : Phase) :
    (s.setPhase p).event = s.event := rfl
@[simp] theorem State.setPhase_draw (p : Phase) :
    (s.setPhase p).draw = s.draw := rfl

@[simp] theorem State.transmit_config (bs : List Byte) :
    (s.transmit bs).config = s.config := rfl
@[simp] theorem State.transmit_status (bs : List Byte) :
    (s.transmit bs).status = s.status := rfl
@[simp] theorem State.transmit_phase (bs : List Byte) :
    (s.transmit bs).phase = s.phase := rfl
@[simp] theorem State.transmit_ckacc (bs : List Byte) :
    (s.transmit bs).ckacc = s.ckacc := rfl
@[simp] theorem State.transmit_record (bs : List Byte) :
    (s.transmit bs).record = s.record := rfl
@[simp] theorem State.transmit_pktLen (bs : List Byte) :
    (s.transmit bs).pktLen = s.pktLen := rfl
@[simp] theorem State.transmit_respLen (bs : List Byte) :
    (s.transmit bs).respLen = s.respLen := rfl
@[simp] theorem State.transmit_lineLen (bs : List Byte) :
    (s.transmit bs).lineLen = s.lineLen := rfl
@[simp] theorem State.transmit_mem (bs : List Byte) :
    (s.transmit bs).mem = s.mem := rfl
@[simp] theorem State.transmit_rx (bs : List Byte) :
    (s.transmit bs).rx = s.rx := rfl
@[simp] theorem State.transmit_tx (bs : List Byte) :
    (s.transmit bs).tx = s.tx ++ bs := rfl
@[simp] theorem State.transmit_diag (bs : List Byte) :
    (s.transmit bs).diag = s.diag := rfl
@[simp] theorem State.transmit_hostQ (bs : List Byte) :
    (s.transmit bs).hostQ = s.hostQ := rfl
@[simp] theorem State.transmit_agenda (bs : List Byte) :
    (s.transmit bs).agenda = s.agenda := rfl
@[simp] theorem State.transmit_event (bs : List Byte) :
    (s.transmit bs).event = s.event := rfl
@[simp] theorem State.transmit_draw (bs : List Byte) :
    (s.transmit bs).draw = s.draw := rfl

@[simp] theorem State.diagnose_config (e : DiagEvent) :
    (s.diagnose e).config = s.config := rfl
@[simp] theorem State.diagnose_status (e : DiagEvent) :
    (s.diagnose e).status = s.status := rfl
@[simp] theorem State.diagnose_phase (e : DiagEvent) :
    (s.diagnose e).phase = s.phase := rfl
@[simp] theorem State.diagnose_ckacc (e : DiagEvent) :
    (s.diagnose e).ckacc = s.ckacc := rfl
@[simp] theorem State.diagnose_record (e : DiagEvent) :
    (s.diagnose e).record = s.record := rfl
@[simp] theorem State.diagnose_pktLen (e : DiagEvent) :
    (s.diagnose e).pktLen = s.pktLen := rfl
@[simp] theorem State.diagnose_respLen (e : DiagEvent) :
    (s.diagnose e).respLen = s.respLen := rfl
@[simp] theorem State.diagnose_lineLen (e : DiagEvent) :
    (s.diagnose e).lineLen = s.lineLen := rfl
@[simp] theorem State.diagnose_mem (e : DiagEvent) :
    (s.diagnose e).mem = s.mem := rfl
@[simp] theorem State.diagnose_rx (e : DiagEvent) :
    (s.diagnose e).rx = s.rx := rfl
@[simp] theorem State.diagnose_tx (e : DiagEvent) :
    (s.diagnose e).tx = s.tx := rfl
@[simp] theorem State.diagnose_diag (e : DiagEvent) :
    (s.diagnose e).diag = s.diag ++ [e] := rfl
@[simp] theorem State.diagnose_hostQ (e : DiagEvent) :
    (s.diagnose e).hostQ = s.hostQ := rfl
@[simp] theorem State.diagnose_agenda (e : DiagEvent) :
    (s.diagnose e).agenda = s.agenda := rfl
@[simp] theorem State.diagnose_event (e : DiagEvent) :
    (s.diagnose e).event = s.event := rfl
@[simp] theorem State.diagnose_draw (e : DiagEvent) :
    (s.diagnose e).draw = s.draw := rfl

@[simp] theorem State.rxFlush_config :
    (s.rxFlush).config = s.config := rfl
@[simp] theorem State.rxFlush_status :
    (s.rxFlush).status = s.status := rfl
@[simp] theorem State.rxFlush_phase :
    (s.rxFlush).phase = s.phase := rfl
@[simp] theorem State.rxFlush_ckacc :
    (s.rxFlush).ckacc = s.ckacc := rfl
@[simp] theorem State.rxFlush_record :
    (s.rxFlush).record = s.record := rfl
@[simp] theorem State.rxFlush_pktLen :
    (s.rxFlush).pktLen = s.pktLen := rfl
@[simp] theorem State.rxFlush_respLen :
    (s.rxFlush).respLen = s.respLen := rfl
@[simp] theorem State.rxFlush_lineLen :
    (s.rxFlush).lineLen = s.lineLen := rfl
@[simp] theorem State.rxFlush_mem :
    (s.rxFlush).mem = s.mem := rfl
@[simp] theorem State.rxFlush_rx :
    (s.rxFlush).rx = [] := rfl
@[simp] theorem State.rxFlush_tx :
    (s.rxFlush).tx = s.tx := rfl
@[simp] theorem State.rxFlush_diag :
    (s.rxFlush).diag = s.diag := rfl
@[simp] theorem State.rxFlush_hostQ :
    (s.rxFlush).hostQ = s.hostQ := rfl
@[simp] theorem State.rxFlush_agenda :
    (s.rxFlush).agenda = s.agenda := rfl
@[simp] theorem State.rxFlush_event :
    (s.rxFlush).event = s.event := rfl
@[simp] theorem State.rxFlush_draw :
    (s.rxFlush).draw = s.draw := rfl

@[simp] theorem State.rxDrop_config (k : Nat) :
    (s.rxDrop k).config = s.config := rfl
@[simp] theorem State.rxDrop_status (k : Nat) :
    (s.rxDrop k).status = s.status := rfl
@[simp] theorem State.rxDrop_phase (k : Nat) :
    (s.rxDrop k).phase = s.phase := rfl
@[simp] theorem State.rxDrop_ckacc (k : Nat) :
    (s.rxDrop k).ckacc = s.ckacc := rfl
@[simp] theorem State.rxDrop_record (k : Nat) :
    (s.rxDrop k).record = s.record := rfl
@[simp] theorem State.rxDrop_pktLen (k : Nat) :
    (s.rxDrop k).pktLen = s.pktLen := rfl
@[simp] theorem State.rxDrop_respLen (k : Nat) :
    (s.rxDrop k).respLen = s.respLen := rfl
@[simp] theorem State.rxDrop_lineLen (k : Nat) :
    (s.rxDrop k).lineLen = s.lineLen := rfl
@[simp] theorem State.rxDrop_mem (k : Nat) :
    (s.rxDrop k).mem = s.mem := rfl
@[simp] theorem State.rxDrop_rx (k : Nat) :
    (s.rxDrop k).rx = s.rx.drop k := rfl
@[simp] theorem State.rxDrop_tx (k : Nat) :
    (s.rxDrop k).tx = s.tx := rfl
@[simp] theorem State.rxDrop_diag (k : Nat) :
    (s.rxDrop k).diag = s.diag := rfl
@[simp] theorem State.rxDrop_hostQ (k : Nat) :
    (s.rxDrop k).hostQ = s.hostQ := rfl
@[simp] theorem State.rxDrop_agenda (k : Nat) :
    (s.rxDrop k).agenda = s.agenda := rfl
@[simp] theorem State.rxDrop_event (k : Nat) :
    (s.rxDrop k).event = s.event := rfl
@[simp] theorem State.rxDrop_draw (k : Nat) :
    (s.rxDrop k).draw = s.draw := rfl

@[simp] theorem State.sample_config (ev : LinkEvent) (d : Nat) :
    (s.sample ev d).config = s.config := rfl
@[simp] theorem State.sample_status (ev : LinkEvent) (d : Nat) :
    (s.sample ev d).status = s.status := rfl
@[simp] theorem State.sample_phase (ev : LinkEvent) (d : Nat) :
    (s.sample ev d).phase = s.phase := rfl
@[simp] theorem State.sample_ckacc (ev : LinkEvent) (d : Nat) :
    (s.sample ev d).ckacc = s.ckacc := rfl
@[simp] theorem State.sample_record (ev : LinkEvent) (d : Nat) :
    (s.sample ev d).record = s.record := rfl
@[simp] theorem State.sample_pktLen (ev : LinkEvent) (d : Nat) :
    (s.sample ev d).pktLen = s.pktLen := rfl
@[simp] theorem State.sample_respLen (ev : LinkEvent) (d : Nat) :
    (s.sample ev d).respLen = s.respLen := rfl
@[simp] theorem State.sample_lineLen (ev : LinkEvent) (d : Nat) :
    (s.sample ev d).lineLen = s.lineLen := rfl
@[simp] theorem State.sample_mem (ev : LinkEvent) (d : Nat) :
    (s.sample ev d).mem = s.mem := rfl
@[simp] theorem State.sample_rx (ev : LinkEvent) (d : Nat) :
    (s.sample ev d).rx = s.rx := rfl
@[simp] theorem State.sample_tx (ev : LinkEvent) (d : Nat) :
    (s.sample ev d).tx = s.tx := rfl
@[simp] theorem State.sample_diag (ev : LinkEvent) (d : Nat) :
    (s.sample ev d).diag = s.diag := rfl
@[simp] theorem State.sample_hostQ (ev : LinkEvent) (d : Nat) :
    (s.sample ev d).hostQ = s.hostQ := rfl
@[simp] theorem State.sample_agenda (ev : LinkEvent) (d : Nat) :
    (s.sample ev d).agenda = s.agenda := rfl
@[simp] theorem State.sample_event (ev : LinkEvent) (d : Nat) :
    (s.sample ev d).event = ev := rfl
@[simp] theorem State.sample_draw (ev : LinkEvent) (d : Nat) :
    (s.sample ev d).draw = d := rfl

@[simp] theorem State.setRecordFields_config (h : LineHeader) (t : Byte) :
    (s.setRecordFields h t).config = s.config := rfl
@[simp] theorem State.setRecordFields_status (h : LineHeader) (t : Byte) :
    (s.setRecordFields h t).status = s.status := rfl
@[simp] theorem State.setRecordFields_phase (h : LineHeader) (t : Byte) :
    (s.setRecordFields h t).phase = s.phase := rfl
@[simp] theorem State.setRecordFields_ckacc (h : LineHeader) (t : Byte) :
    (s.setRecordFields h t).ckacc = s.ckacc := rfl
@[simp] theorem State.setRecordFields_record (h : LineHeader) (t : Byte) :
    (s.setRecordFields h t).record = { s.record with count := h.count, addr := h.addr, type := t } := rfl
@[simp] theorem State.setRecordFields_pktLen (h : LineHeader) (t : Byte) :
    (s.setRecordFields h t).pktLen = s.pktLen := rfl
@[simp] theorem State.setRecordFields_respLen (h : LineHeader) (t : Byte) :
    (s.setRecordFields h t).respLen = s.respLen := rfl
@[simp] theorem State.setRecordFields_lineLen (h : LineHeader) (t : Byte) :
    (s.setRecordFields h t).lineLen = s.lineLen := rfl
@[simp] theorem State.setRecordFields_mem (h : LineHeader) (t : Byte) :
    (s.setRecordFields h t).mem = s.mem := rfl
@[simp] theorem State.setRecordFields_rx (h : LineHeader) (t : Byte) :
    (s.setRecordFields h t).rx = s.rx := rfl
@[simp] theorem State.setRecordFields_tx (h : LineHeader) (t : Byte) :
    (s.setRecordFields h t).tx = s.tx := rfl
@[simp] theorem State.setRecordFields_diag (h : LineHeader) (t : Byte) :
    (s.setRecordFields h t).diag = s.diag := rfl
@[simp] theorem State.setRecordFields_hostQ (h : LineHeader) (t : Byte) :
    (s.setRecordFields h t).hostQ = s.hostQ := rfl
@[simp] theorem State.setRecordFields_agenda (h : LineHeader) (t : Byte) :
    (s.setRecordFields h t).agenda = s.agenda := rfl
@[simp] theorem State.setRecordFields_event (h : LineHeader) (t : Byte) :
    (s.setRecordFields h t).event = s.event := rfl
@[simp] theorem State.setRecordFields_draw (h : LineHeader) (t : Byte) :
    (s.setRecordFields h t).draw = s.draw := rfl

@[simp] theorem State.setRecordCks_config (c : Byte) :
    (s.setRecordCks c).config = s.config := rfl
@[simp] theorem State.setRecordCks_status (c : Byte) :
    (s.setRecordCks c).status = s.status := rfl
@[simp] theorem State.setRecordCks_phase (c : Byte) :
    (s.setRecordCks c).phase = s.phase := rfl
@[simp] theorem State.setRecordCks_ckacc (c : Byte) :
    (s.setRecordCks c).ckacc = s.ckacc := rfl
@[simp] theorem State.setRecordCks_record (c : Byte) :
    (s.setRecordCks c).record = { s.record with cks := c } := rfl
@[simp] theorem State.setRecordCks_pktLen (c : Byte) :
    (s.setRecordCks c).pktLen = s.pktLen := rfl
@[simp] theorem State.setRecordCks_respLen (c : Byte) :
    (s.setRecordCks c).respLen = s.respLen := rfl
@[simp] theorem State.setRecordCks_lineLen (c : Byte) :
    (s.setRecordCks c).lineLen = s.lineLen := rfl
@[simp] theorem State.setRecordCks_mem (c : Byte) :
    (s.setRecordCks c).mem = s.mem := rfl
@[simp] theorem State.setRecordCks_rx (c : Byte) :
    (s.setRecordCks c).rx = s.rx := rfl
@[simp] theorem State.setRecordCks_tx (c : Byte) :
    (s.setRecordCks c).tx = s.tx := rfl
@[simp] theorem State.setRecordCks_diag (c : Byte) :
    (s.setRecordCks c).diag = s.diag := rfl
@[simp] theorem State.setRecordCks_hostQ (c : Byte) :
    (s.setRecordCks c).hostQ = s.hostQ := rfl
@[simp] theorem State.setRecordCks_agenda (c : Byte) :
    (s.setRecordCks c).agenda = s.agenda := rfl
@[simp] theorem State.setRecordCks_event (c : Byte) :
    (s.setRecordCks c).event = s.event := rfl
@[simp] theorem State.setRecordCks_draw (c : Byte) :
    (s.setRecordCks c).draw = s.draw := rfl

@[simp] theorem State.setPktLen_config (n : Nat) :
    (s.setPktLen n).config = s.config := rfl
@[simp] theorem State.setPktLen_status (n : Nat) :
    (s.setPktLen n).status = s.status := rfl
@[simp] theorem State.setPktLen_phase (n : Nat) :
    (s.setPktLen n).phase = s.phase := rfl
@[simp] theorem State.setPktLen_ckacc (n : Nat) :
    (s.setPktLen n).ckacc = s.ckacc := rfl
@[simp] theorem State.setPktLen_record (n : Nat) :
    (s.setPktLen n).record = s.record := rfl
@[simp] theorem State.setPktLen_pktLen (n : Nat) :
    (s.setPktLen n).pktLen = BitVec.ofNat 9 n := rfl
@[simp] theorem State.setPktLen_respLen (n : Nat) :
    (s.setPktLen n).respLen = s.respLen := rfl
@[simp] theorem State.setPktLen_lineLen (n : Nat) :
    (s.setPktLen n).lineLen = s.lineLen := rfl
@[simp] theorem State.setPktLen_mem (n : Nat) :
    (s.setPktLen n).mem = s.mem := rfl
@[simp] theorem State.setPktLen_rx (n : Nat) :
    (s.setPktLen n).rx = s.rx := rfl
@[simp] theorem State.setPktLen_tx (n : Nat) :
    (s.setPktLen n).tx = s.tx := rfl
@[simp] theorem State.setPktLen_diag (n : Nat) :
    (s.setPktLen n).diag = s.diag := rfl
@[simp] theorem State.setPktLen_hostQ (n : Nat) :
    (s.setPktLen n).hostQ = s.hostQ := rfl
@[simp] theorem State.setPktLen_agenda (n : Nat) :
    (s.setPktLen n).agenda = s.agenda := rfl
@[simp] theorem State.setPktLen_event (n : Nat) :
    (s.setPktLen n).event = s.event := rfl
@[simp] theorem State.setPktLen_draw (n : Nat) :
    (s.setPktLen n).draw = s.draw := rfl

end Updates

end Sys2Proof.Machine
end

