-- ==== Sys2Proof/Laws/Memory.lean ====
section
/-! SUPPORT. The laws of the byte spaces: a read after a write, what a write leaves alone, and that every write keeps
the canonical form. -/
namespace Sys2Proof.Machine

@[simp] theorem readCell_nil (a : Nat) : readCell [] a = unlistedByte := rfl

theorem readCell_consCell (a : Nat) (b : Byte) (rest : Cells) (c : Nat) (hne : c ≠ a) :
    readCell (consCell a b rest) c = readCell rest c := by
  unfold consCell
  split
  · rfl
  · simp [readCell, Ne.symm hne]

/-- A write leaves every other address alone, in any list of cells. -/
theorem readCell_writeCell_other (m : Cells) (a : Nat) (b : Byte) (c : Nat) (hne : c ≠ a) :
    readCell (writeCell m a b) c = readCell m c := by
  induction m with
  | nil => exact readCell_consCell a b [] c hne
  | cons kv rest ih =>
    obtain ⟨k, v⟩ := kv
    simp only [writeCell]
    split
    · simp only [readCell, ih]
    · split
      · next heq => subst heq; rw [readCell_consCell _ _ _ _ hne]; simp [readCell, Ne.symm hne]
      · exact readCell_consCell a b _ c hne

/-- Below its first address a canonical list of cells reads as unlisted. -/
theorem readCell_below (size lo : Nat) (m : Cells) (h : cellsWfFrom lo size m = true) (a : Nat) (ha : a < lo) :
    readCell m a = unlistedByte := by
  induction m generalizing lo with
  | nil => rfl
  | cons kv rest ih =>
    obtain ⟨k, v⟩ := kv
    simp only [cellsWfFrom, Bool.and_eq_true, decide_eq_true_eq] at h
    simp only [readCell]
    rw [if_neg (by omega)]
    exact ih (k + 1) h.2 (by omega)

theorem readCell_consCell_same (size : Nat) (a : Nat) (b : Byte) (rest : Cells)
    (h : cellsWfFrom (a + 1) size rest = true) : readCell (consCell a b rest) a = b := by
  unfold consCell
  split
  · next hb => rw [hb]; exact readCell_below size (a + 1) rest h a (by omega)
  · simp [readCell]

/-- A canonical list of cells is canonical from any lower address on. -/
theorem cellsWfFrom_mono (size lo lo' : Nat) (m : Cells) (hle : lo' ≤ lo) (h : cellsWfFrom lo size m = true) :
    cellsWfFrom lo' size m = true := by
  cases m with
  | nil => rfl
  | cons kv rest =>
    obtain ⟨k, v⟩ := kv
    simp only [cellsWfFrom, Bool.and_eq_true, decide_eq_true_eq] at h ⊢
    exact ⟨⟨⟨by omega, h.1.1.2⟩, h.1.2⟩, h.2⟩

theorem cellsWfFrom_consCell (size lo a : Nat) (b : Byte) (rest : Cells) (hlo : lo ≤ a) (ha : a < size)
    (h : cellsWfFrom (a + 1) size rest = true) : cellsWfFrom lo size (consCell a b rest) = true := by
  unfold consCell
  split
  · exact cellsWfFrom_mono size (a + 1) lo rest (by omega) h
  · next hb => simp [cellsWfFrom, hlo, ha, hb, h]

/-- A write inside the space keeps the canonical form. -/
theorem cellsWfFrom_writeCell (size lo : Nat) (m : Cells) (a : Nat) (b : Byte) (hlo : lo ≤ a) (ha : a < size)
    (h : cellsWfFrom lo size m = true) : cellsWfFrom lo size (writeCell m a b) = true := by
  induction m generalizing lo with
  | nil => exact cellsWfFrom_consCell size lo a b [] hlo ha rfl
  | cons kv rest ih =>
    obtain ⟨k, v⟩ := kv
    have h' := h
    simp only [cellsWfFrom, Bool.and_eq_true, decide_eq_true_eq] at h'
    simp only [writeCell]
    split
    · next hk =>
      simp only [cellsWfFrom, Bool.and_eq_true, decide_eq_true_eq]
      exact ⟨h'.1, ih (k + 1) (by omega) h'.2⟩
    · split
      · next heq => subst heq; exact cellsWfFrom_consCell size lo k b rest hlo ha h'.2
      · next hlt hne =>
        refine cellsWfFrom_consCell size lo a b _ hlo ha ?_
        simp only [cellsWfFrom, Bool.and_eq_true, decide_eq_true_eq]
        exact ⟨⟨⟨by omega, h'.1.1.2⟩, h'.1.2⟩, h'.2⟩

/-- In a canonical space a read after a write to the same address gives the byte written. -/
theorem readCell_writeCell_same_from (size lo : Nat) (m : Cells) (a : Nat) (b : Byte)
    (h : cellsWfFrom lo size m = true) : readCell (writeCell m a b) a = b := by
  induction m generalizing lo with
  | nil => exact readCell_consCell_same (a + 1) a b [] rfl
  | cons kv rest ih =>
    obtain ⟨k, v⟩ := kv
    have h' := h
    simp only [cellsWfFrom, Bool.and_eq_true, decide_eq_true_eq] at h'
    simp only [writeCell]
    split
    · next hk => simp only [readCell]; rw [if_neg (by omega)]; exact ih (k + 1) h'.2
    · split
      · next heq => subst heq; exact readCell_consCell_same size k b rest h'.2
      · next hlt hne =>
        refine readCell_consCell_same size a b _ ?_
        simp only [cellsWfFrom, Bool.and_eq_true, decide_eq_true_eq]
        exact ⟨⟨⟨by omega, h'.1.1.2⟩, h'.1.2⟩, h'.2⟩

theorem readCell_writeCell_same (size : Nat) (m : Cells) (a : Nat) (b : Byte) (h : cellsWf size m = true) :
    readCell (writeCell m a b) a = b := readCell_writeCell_same_from size 0 m a b h

theorem cellsWf_writeCell (size : Nat) (m : Cells) (a : Nat) (b : Byte) (ha : a < size) (h : cellsWf size m = true) :
    cellsWf size (writeCell m a b) = true := cellsWfFrom_writeCell size 0 m a b (by omega) ha h

/-- Writing bytes inside the space keeps the canonical form. -/
theorem cellsWf_writeBytes (size : Nat) (m : Cells) (a : Nat) (bs : List Byte) (hin : a + bs.length ≤ size)
    (h : cellsWf size m = true) : cellsWf size (writeBytes m a bs) = true := by
  induction bs generalizing m a with
  | nil => exact h
  | cons b bs ih =>
    simp only [List.length_cons] at hin
    exact ih (writeCell m a b) (a + 1) (by omega) (cellsWf_writeCell size m a b (by omega) h)

/-- Writing bytes leaves every address outside them alone, in any list of cells. -/
theorem readCell_writeBytes_outside (m : Cells) (a : Nat) (bs : List Byte) (c : Nat)
    (hout : c < a ∨ a + bs.length ≤ c) : readCell (writeBytes m a bs) c = readCell m c := by
  induction bs generalizing m a with
  | nil => rfl
  | cons b bs ih =>
    simp only [List.length_cons] at hout
    simp only [writeBytes]
    rw [ih (writeCell m a b) (a + 1) (by omega), readCell_writeCell_other m a b c (by omega)]

@[simp] theorem readBytes_length (m : Cells) (a n : Nat) : (readBytes m a n).length = n := by
  induction n generalizing a with
  | zero => rfl
  | succ n ih => simp [readBytes, ih]

/-- Reading bytes depends only on the addresses read. -/
theorem readBytes_congr (m m' : Cells) (a n : Nat) (h : ∀ c, a ≤ c → c < a + n → readCell m c = readCell m' c) :
    readBytes m a n = readBytes m' a n := by
  induction n generalizing a with
  | zero => rfl
  | succ n ih =>
    simp only [readBytes]
    rw [h a (by omega) (by omega), ih (a + 1) (fun c h1 h2 => h c (by omega) (by omega))]

/-- In a canonical space reading back the bytes written gives them. -/
theorem readBytes_writeBytes (size : Nat) (m : Cells) (a : Nat) (bs : List Byte) (hin : a + bs.length ≤ size)
    (h : cellsWf size m = true) : readBytes (writeBytes m a bs) a bs.length = bs := by
  induction bs generalizing m a with
  | nil => rfl
  | cons b bs ih =>
    simp only [List.length_cons] at hin
    simp only [writeBytes, List.length_cons, readBytes]
    rw [ih (writeCell m a b) (a + 1) (by omega) (cellsWf_writeCell size m a b (by omega) h),
      readCell_writeBytes_outside _ _ _ _ (by omega), readCell_writeCell_same size m a b h]

theorem readBytes_getElem? (m : Cells) (a n i : Nat) (hi : i < n) :
    (readBytes m a n)[i]? = some (readCell m (a + i)) := by
  induction n generalizing a i with
  | zero => omega
  | succ n ih =>
    cases i with
    | zero => rfl
    | succ i =>
      simp only [readBytes, List.getElem?_cons_succ]
      rw [ih (a + 1) i (by omega)]
      congr 2
      omega

/-- The spaces are in canonical form when each of them is. -/
theorem Memory.wf_iff (m : Memory) :
    m.wf = true ↔ cellsWf Space.line.size m.line = true ∧ cellsWf Space.ckb.size m.ckb = true ∧
      cellsWf Space.recd.size m.recd = true ∧ cellsWf Space.pkt.size m.pkt = true ∧
      cellsWf Space.resp.size m.resp = true ∧ cellsWf Space.did.size m.did = true := by
  simp [Memory.wf, Bool.and_eq_true, and_assoc]

theorem State.writeLine_wf (s : State) (a : Nat) (bs : List Byte) (hin : a + bs.length ≤ Space.line.size)
    (h : s.mem.wf = true) : (s.writeLine a bs).mem.wf = true := by
  rw [Memory.wf_iff] at h ⊢
  exact ⟨cellsWf_writeBytes _ _ _ _ hin h.1, h.2⟩

theorem State.writeCkb_wf (s : State) (a : Nat) (bs : List Byte) (hin : a + bs.length ≤ Space.ckb.size)
    (h : s.mem.wf = true) : (s.writeCkb a bs).mem.wf = true := by
  rw [Memory.wf_iff] at h ⊢
  exact ⟨h.1, cellsWf_writeBytes _ _ _ _ hin h.2.1, h.2.2⟩

theorem State.writeRecd_wf (s : State) (bs : List Byte) (hin : bs.length ≤ Space.recd.size)
    (h : s.mem.wf = true) : (s.writeRecd bs).mem.wf = true := by
  rw [Memory.wf_iff] at h ⊢
  exact ⟨h.1, h.2.1, cellsWf_writeBytes _ _ _ _ (by omega) h.2.2.1, h.2.2.2⟩

theorem State.writePkt_wf (s : State) (a : Nat) (bs : List Byte) (hin : a + bs.length ≤ Space.pkt.size)
    (h : s.mem.wf = true) : (s.writePkt a bs).mem.wf = true := by
  rw [Memory.wf_iff] at h ⊢
  exact ⟨h.1, h.2.1, h.2.2.1, cellsWf_writeBytes _ _ _ _ hin h.2.2.2.1, h.2.2.2.2⟩

theorem State.writeResp_wf (s : State) (bs : List Byte) (hin : bs.length ≤ Space.resp.size)
    (h : s.mem.wf = true) : (s.writeResp bs).mem.wf = true := by
  rw [Memory.wf_iff] at h ⊢
  exact ⟨h.1, h.2.1, h.2.2.1, h.2.2.2.1, cellsWf_writeBytes _ _ _ _ (by omega) h.2.2.2.2.1, h.2.2.2.2.2⟩

theorem State.writeDid_wf (s : State) (bs : List Byte) (hin : bs.length ≤ Space.did.size)
    (h : s.mem.wf = true) : (s.writeDid bs).mem.wf = true := by
  rw [Memory.wf_iff] at h ⊢
  exact ⟨h.1, h.2.1, h.2.2.1, h.2.2.2.1, h.2.2.2.2.1, cellsWf_writeBytes _ _ _ _ (by omega) h.2.2.2.2.2⟩

/-- The spaces are in canonical form after reset. -/
theorem Memory.reset_wf : Memory.reset.wf = true := rfl

end Sys2Proof.Machine
end

