-- ==== Sys2Proof/Laws/Ops.lean ====
section
/-! SUPPORT. What each shared operation can do, said once: request acceptance, the line operations, the framer, the
transmit steps, the response read, reset. -/
namespace Sys2Proof.Machine

/-- An idle block that is not aborted runs the operation. -/
theorem State.accept_ready (s : State) (run : State → StepResult) (hp : s.phase = .idle)
    (ha : s.status.aborted = false) : s.accept run = run s := by
  simp [State.accept, hp, ha]

/-- An idle aborted block refuses. -/
theorem State.accept_aborted (s : State) (run : State → StepResult) (hp : s.phase = .idle)
    (ha : s.status.aborted = true) : s.accept run = .next s.refuse := by
  simp [State.accept, hp, ha]

/-- A block that is not idle takes no request. -/
theorem State.accept_busy (s : State) (run : State → StepResult) (hp : s.phase ≠ .idle) : s.accept run = .next s := by
  simp [State.accept, hp]

/-- Everything acceptance can do. -/
theorem State.accept_cases (s t : State) (run : State → StepResult) (h : s.accept run = .next t) :
    (s.phase ≠ .idle ∧ t = s) ∨ (s.phase = .idle ∧ s.status.aborted = true ∧ t = s.refuse) ∨
      (s.phase = .idle ∧ s.status.aborted = false ∧ run s = .next t) := by
  by_cases hp : s.phase = .idle
  · by_cases ha : s.status.aborted = true
    · rw [s.accept_aborted run hp ha] at h
      cases h
      exact .inr (.inl ⟨hp, ha, rfl⟩)
    · have ha' : s.status.aborted = false := by simpa using ha
      rw [s.accept_ready run hp ha'] at h
      exact .inr (.inr ⟨hp, ha', h⟩)
  · rw [s.accept_busy run hp] at h
    cases h
    exact .inl ⟨hp, rfl⟩

/-- What fits in LINEBUF is at most MAX_LINE. -/
theorem lineFits_iff (n : Nat) : lineFits n = true ↔ n ≤ Config.maxLine := by
  have hle : Config.leastMaxLine ≤ Config.maxLine := Nat.le_add_left _ _
  rw [lineFits, Bool.or_eq_true, decide_eq_true_eq, decide_eq_true_eq]
  exact ⟨fun h => h.elim (fun h => Nat.le_trans h hle) id, .inr⟩

theorem lineFits_eq_false_iff (n : Nat) : lineFits n = false ↔ Config.maxLine < n := by
  rw [← Bool.not_eq_true, lineFits_iff, Nat.not_le]

/-- A line operation inside LINE runs on the header it reads, or ends in FORMAT_ERROR. -/
theorem State.onLine_next (s : State) (run : State → LineHeader → State) (hl : s.lineLen ≤ Config.maxLine) :
    s.onLine run = .next (match readHeader s.config.hexLc s.fieldChars with
      | .error e => s.formatError e
      | .ok h => run s h) := by
  have hfit : lineFits s.lineLen = true := (lineFits_iff _).mpr hl
  simp only [State.onLine, hfit, Bool.true_eq_false, if_false]
  cases readHeader s.config.hexLc s.fieldChars <;> rfl

/-- Everything a line operation can do. -/
theorem State.onLine_cases (s t : State) (run : State → LineHeader → State) (h : s.onLine run = .next t) :
    (∃ e, t = s.formatError e) ∨ ∃ hd, readHeader s.config.hexLc s.fieldChars = .ok hd ∧ t = run s hd := by
  simp only [State.onLine] at h
  split at h
  · cases h
  · split at h
    · next e _ => cases h; exact .inl ⟨e, rfl⟩
    · next hd heq => cases h; exact .inr ⟨hd, heq, rfl⟩

/-- Everything the end of a Data line can do. -/
theorem State.dataRecord_cases (s : State) (h : LineHeader) :
    (∃ e, s.dataRecord h = s.formatError e) ∨
      ∃ d cks, d.length = h.count.toNat ∧
        readData s.config.hexLc s.fieldChars h.count.toNat = .ok (d, cks) ∧
        s.dataRecord h =
          ((((s.setRecordFields h typeData).writeRecd d).setRecordCks cks).setRecValid true).finish .ok := by
  unfold State.dataRecord
  split
  · next e _ => exact .inl ⟨e, rfl⟩
  · next d cks heq => exact .inr ⟨d, cks, readData_length _ _ _ _ _ heq, heq, rfl⟩

/-- Everything HEXDEC can do from the record type pair on. -/
theorem State.decodeTyped_cases (s : State) (h : LineHeader) :
    (∃ e, s.decodeTyped h = s.formatError e) ∨ s.decodeTyped h = s.dataRecord h ∨
      ∃ t, s.decodeTyped h = s.skipRecord h t := by
  unfold State.decodeTyped
  split
  · next e _ => exact .inl ⟨e, rfl⟩
  · next t _ =>
    split
    · exact .inr (.inl rfl)
    · exact .inr (.inr ⟨t, rfl⟩)

/-- Everything BUILD_W and BUILD_V can do. -/
theorem State.frameRecord_cases (s : State) (cmd : Command) :
    (s.status.recValid = false ∧ s.frameRecord cmd = s.buildFault .noRecord) ∨
      (s.status.recValid = true ∧ buildMaxCount < s.record.count.toNat ∧
        s.frameRecord cmd = s.buildFault .lengthOverflow) ∨
      (s.status.recValid = true ∧ s.record.count.toNat ≤ buildMaxCount ∧
        s.frameRecord cmd = s.frame cmd (s.record.count + lengthOffset) s.record.addr s.recordData) := by
  unfold State.frameRecord
  split
  · next h => exact .inl ⟨h, rfl⟩
  · next h =>
    have h' : s.status.recValid = true := by simpa using h
    split
    · next hc => exact .inr (.inl ⟨h', hc, rfl⟩)
    · next hc => exact .inr (.inr ⟨h', Nat.not_lt.mp hc, rfl⟩)

@[simp] theorem State.recordData_length (s : State) : s.recordData.length = s.record.count.toNat := by
  simp [State.recordData]

/-- The length field of a record's packet does not wrap while REC_COUNT is at most 250. -/
theorem lengthField_toNat (c : Byte) (h : c.toNat ≤ buildMaxCount) : (c + lengthOffset).toNat = c.toNat + 5 := by
  simp only [buildMaxCount] at h
  have h5 : lengthOffset.toNat = 5 := rfl
  rw [BitVec.toNat_add, h5]
  omega

/-- Everything SEND's transmit step can do. -/
theorem State.sendPacket_cases (s t : State) (h : s.sendPacket = .next t) :
    (s.event = .ioErr ∧ t = s.fatal .linkError) ∨
      (s.event ≠ .ioErr ∧ s.pktLen.toNat ≤ pktMax ∧ t = (s.transmit s.packet).setPhase .sendWait) := by
  simp only [State.sendPacket] at h
  split at h
  · next he => cases h; exact .inl ⟨he, rfl⟩
  · next he =>
    split at h
    · cases h
    · next hl => cases h; exact .inr ⟨he, Nat.not_lt.mp hl, rfl⟩

/-- Everything SYNC's transmit step can do. -/
theorem State.sendSyncByte_cases (s t : State) (h : s.sendSyncByte = .next t) :
    (s.event = .ioErr ∧ t = s.fatal .linkError) ∨
      (s.event ≠ .ioErr ∧ t = (s.transmit [syncChar]).setPhase .hsWait) := by
  simp only [State.sendSyncByte] at h
  split at h
  · next he => cases h; exact .inl ⟨he, rfl⟩
  · next he => cases h; exact .inr ⟨he, rfl⟩

/-- Everything SYNC's readiness step can do. -/
theorem State.syncReady_cases (s : State) :
    (s.event = .ioErr ∧ s.syncReady = s.fatal .hsIoErr) ∨
      (s.event ≠ .ioErr ∧ s.rx ≠ [] ∧ s.syncReady = s.setPhase .hsRead) ∨
      (s.event = .timeout ∧ s.rx = [] ∧ s.syncReady = s.fatal .hsTimeout) ∨
      (s.event = .none ∧ s.rx = [] ∧ s.syncReady = s) := by
  unfold State.syncReady
  by_cases he : s.event = .ioErr
  · exact .inl ⟨he, if_pos he⟩
  · by_cases hr : s.rx = []
    · rw [if_neg he, if_neg (by simp [hr])]
      cases hev : s.event with
      | none => exact .inr (.inr (.inr ⟨rfl, hr, by simp⟩))
      | timeout => exact .inr (.inr (.inl ⟨rfl, hr, by simp⟩))
      | ioErr => exact absurd hev he
    · exact .inr (.inl ⟨he, hr, by rw [if_neg he, if_pos hr]⟩)

/-- Everything SYNC's read step can do. -/
theorem State.syncRead_cases (s : State) :
    (s.event = .ioErr ∧ s.syncRead = s.fatal .linkError) ∨
      (s.event ≠ .ioErr ∧ s.rx.length < devIdLen ∧ s.syncRead = s) ∨
      (s.event ≠ .ioErr ∧ devIdLen ≤ s.rx.length ∧ s.syncRead = s.syncComplete (s.rx.take devIdLen)) := by
  unfold State.syncRead
  split
  · next he => exact .inl ⟨he, rfl⟩
  · next he =>
    split
    · next hl => exact .inr (.inl ⟨he, hl, rfl⟩)
    · next hl => exact .inr (.inr ⟨he, Nat.not_lt.mp hl, rfl⟩)

/-- The read of a response leaves the canonical form: at most 255 bytes are written. -/
theorem State.readResponse_wf (s : State) (b : Byte) (h : s.mem.wf = true) : (s.readResponse b).mem.wf = true := by
  have hr := drawCount_range s.draw (s.rx.length + 1) (by omega)
  refine State.writeResp_wf (s.rxDrop _) _ ?_ h
  simp only [List.length_cons, List.length_take, Space.size]
  omega

/-- The outcome of a response row in SEND_WAIT. -/
theorem State.onResponse_sendWait (s : State) (b : Byte) (conclude : State → State) (hp : s.phase = .sendWait) :
    s.onResponse b conclude = .next (conclude (s.readResponse b)) := by
  simp [State.onResponse, hp]

end Sys2Proof.Machine
end

