-- ==== Sys2Proof/Laws/PerInstr.lean ====
section
/-! SUPPORT. One lemma per constructor: the encoding of a well-formed instruction stands at the place of its row of the
opcode table and matches that row's mask and match (30_encoding.md R81, R91 to R97). -/
namespace Sys2Proof.Laws.TableRow
open Sys2Proof Sys2Proof.Machine

/-- A well-formed instruction is encoded at its row's place, in bits that its row matches. -/
def Statement (i : Instr) : Prop :=
  i.wellFormed = true → (encode i).place = i.row.place ∧ i.row.matches (encode i).bits = true

theorem ckClr : Statement .ckClr := by unfold Statement; decide

/-- The operand of CK_ADD lies outside its row's mask, whatever its value. -/
theorem ckAdd (imm8 : BitVec 8) : Statement (.ckAdd imm8) := by
  intro _
  refine ⟨rfl, ?_⟩
  revert imm8
  decide

/-- The operand of CKSUM lies outside its row's mask, whatever its value. -/
theorem cksum (n9 : BitVec 9) : Statement (.cksum n9) := by
  intro _
  refine ⟨rfl, ?_⟩
  revert n9
  decide

theorem hexdec : Statement .hexdec := by unfold Statement; decide

theorem buildE : Statement .buildE := by unfold Statement; decide

theorem buildW : Statement .buildW := by unfold Statement; decide

theorem buildV : Statement .buildV := by unfold Statement; decide

theorem buildR : Statement .buildR := by unfold Statement; decide

theorem send : Statement .send := by unfold Statement; decide

theorem sync : Statement .sync := by unfold Statement; decide

theorem pktCmdErase : Statement .pktCmdErase := by unfold Statement; decide

theorem pktCmdWrite : Statement .pktCmdWrite := by unfold Statement; decide

theorem pktCmdVerify : Statement .pktCmdVerify := by unfold Statement; decide

theorem pktCmdRun : Statement .pktCmdRun := by unfold Statement; decide

theorem pktPreamble0 : Statement .pktPreamble0 := by unfold Statement; decide

theorem pktPreamble1 : Statement .pktPreamble1 := by unfold Statement; decide

theorem syncByte : Statement .syncByte := by unfold Statement; decide

theorem respAck : Statement .respAck := by unfold Statement; decide

theorem respNack : Statement .respNack := by unfold Statement; decide

/-- A range row has an empty mask, so it matches any byte. -/
theorem respUndefined (b : Byte) : Statement (.respUndefined b) := by
  intro _
  simp [encode, Instr.row, Row.matches]

theorem hexTypeData : Statement .hexTypeData := by unfold Statement; decide

/-- A range row has an empty mask, so it matches any byte. -/
theorem hexTypeOther (t : Byte) : Statement (.hexTypeOther t) := by
  intro _
  simp [encode, Instr.row, Row.matches]

end Sys2Proof.Laws.TableRow
end

