-- ==== Sys2Proof/Laws/Step.lean ====
section
/-! SUPPORT. What a step can do, said once: the relation Move lists every change a turn other than reset makes to the
block, and step_cases takes any step to one of them or to reset. Every invariant is then one case analysis over Move. -/
namespace Sys2Proof.Machine

/-- Every change one turn other than reset makes to the state `s` it has fetched (its agenda, queue and inputs already
advanced). -/
inductive Move (s : State) : State → Prop where
  /-- No agent changes anything. -/
  | stay : Move s s
  /-- A request of an aborted block (60_exceptions.md R244). -/
  | refuse (hp : s.phase = .idle) (ha : s.status.aborted = true) : Move s s.refuse
  /-- An illegal word (60_exceptions.md R254). -/
  | illegal (hp : s.phase = .idle) (ha : s.status.aborted = false) : Move s (s.fatal .illegalOp)
  /-- CK_CLR, CK_ADD, CKSUM (40_checksum.md R122, R123, R125). -/
  | checksum (hp : s.phase = .idle) (ha : s.status.aborted = false) (v : Byte) : Move s ((s.setCkacc v).finish .ok)
  /-- HEXDEC, FORMAT_ERROR (41_hex_decoder.md R150). -/
  | formatError (hp : s.phase = .idle) (ha : s.status.aborted = false) (e : FormatErr) : Move s (s.formatError e)
  /-- HEXDEC, OK (41_hex_decoder.md R148). -/
  | data (hp : s.phase = .idle) (ha : s.status.aborted = false) (h : LineHeader) (d : List Byte) (cks : Byte)
      (hd : d.length = h.count.toNat) :
      Move s (((((s.setRecordFields h typeData).writeRecd d).setRecordCks cks).setRecValid true).finish .ok)
  /-- HEXDEC, SKIP (41_hex_decoder.md R149). -/
  | skip (hp : s.phase = .idle) (ha : s.status.aborted = false) (h : LineHeader) (t : Byte) :
      Move s (s.skipRecord h t)
  /-- A BUILD operation that completes (42_packet_framer.md R170). -/
  | frame (hp : s.phase = .idle) (ha : s.status.aborted = false) (cmd : Command) (len : Byte) (addr : BitVec 16)
      (body : List Byte) (hlen : len.toNat = body.length + 5) : Move s (s.frame cmd len addr body)
  /-- A BUILD operation that writes no packet (42_packet_framer.md R180, R181). -/
  | buildFault (hp : s.phase = .idle) (ha : s.status.aborted = false) (c : ResultCode)
      (hc : c = .noRecord ∨ c = .lengthOverflow) : Move s (s.buildFault c)
  /-- SEND, NOT_SYNCED or NO_PACKET (43_transmitter.md R203). -/
  | sendRejected (hp : s.phase = .idle) (ha : s.status.aborted = false) (c : ResultCode)
      (hc : c = .notSynced ∨ c = .noPacket) : Move s (s.fatal c)
  /-- SEND, LINK_ERROR at transmit (43_transmitter.md R209). -/
  | sendLinkError (hp : s.phase = .idle) (ha : s.status.aborted = false) :
      Move s ((s.setPktValid false).fatal .linkError)
  /-- SEND, the transmit step (43_transmitter.md R204). -/
  | sendPacket (hp : s.phase = .idle) (ha : s.status.aborted = false) (hs : s.status.linkSynced = true)
      (hv : s.status.pktValid = true) (hl : s.pktLen.toNat ≤ pktMax) :
      Move s (((s.setPktValid false).transmit s.packet).setPhase .sendWait)
  /-- SYNC, LINK_ERROR at issue (43_transmitter.md R212). -/
  | syncLinkError (hp : s.phase = .idle) (ha : s.status.aborted = false) :
      Move s ((s.setLinkSynced false).rxFlush.fatal .linkError)
  /-- SYNC, the issue step (43_transmitter.md R212). -/
  | syncIssue (hp : s.phase = .idle) (ha : s.status.aborted = false) :
      Move s (((s.setLinkSynced false).rxFlush.transmit [syncChar]).setPhase .hsWait)
  /-- A wait phase that ends in a fatal result with no byte taken (43_transmitter.md R209, R214 to R216). -/
  | waitFatal (hp : s.phase ≠ .idle) (c : ResultCode) (hc : c = .linkError ∨ c = .hsIoErr ∨ c = .hsTimeout) :
      Move s (s.fatal c)
  /-- SEND's read, and what its byte 0 gives (43_transmitter.md R206, R207). -/
  | response (hp : s.phase = .sendWait) (b : Byte) (rest : List Byte) (hrx : s.rx = b :: rest) (t : State)
      (ht : (b = ackByte ∧ t = ({ s with rx := rest }.readResponse b).finish .ack) ∨
        (b = nackByte ∧ t = ({ s with rx := rest }.readResponse b).fatal .nack) ∨
        (b ≠ ackByte ∧ b ≠ nackByte ∧ t = ({ s with rx := rest }.readResponse b).fatal .undefined)) : Move s t
  /-- SYNC, RX has become readable (43_transmitter.md R213). -/
  | syncReady (hp : s.phase = .hsWait) (hrx : s.rx ≠ []) : Move s (s.setPhase .hsRead)
  /-- SYNC completes (43_transmitter.md R216, R217). -/
  | syncComplete (hp : s.phase = .hsRead) (hrx : devIdLen ≤ s.rx.length) :
      Move s (s.syncComplete (s.rx.take devIdLen))
  /-- The host writes a line (60_exceptions.md R260). -/
  | hostLine (hp : s.phase = .idle) (cs : List Byte) (hin : cs.length ≤ Space.line.size) :
      Move s { s.writeLine 0 cs with lineLen := cs.length }
  /-- The host writes one byte of LINEBUF. -/
  | hostLineByte (hp : s.phase = .idle) (a : Nat) (b : Byte) (hin : a < Space.line.size) : Move s (s.writeLine a [b])
  /-- The host writes LINELEN. -/
  | hostLineLen (hp : s.phase = .idle) (n : Nat) (hin : n ≤ Space.line.size) : Move s { s with lineLen := n }
  /-- The host writes CKBUF. -/
  | hostCkbuf (hp : s.phase = .idle) (a : Nat) (bs : List Byte) (hin : a + bs.length ≤ Space.ckb.size) :
      Move s (s.writeCkb a bs)
  /-- The device appends to RX (10_state.md R35). -/
  | device (bs : List Byte) : Move s (s.deviceTurn bs)

/-- A word's instruction is one of the ten operations. -/
theorem decodeRequest_operation (w : Word) (i : Instr) (h : decodeRequest w = .ok i) :
    (encode i).place = .request := by
  unfold decodeRequest at h
  split at h
  · cases h
  · split at h
    all_goals first
      | (unfold decodePlain at h; split at h <;> first | cases h | (split at h <;> cases h); rfl)
      | (unfold decodeCkAdd at h; split at h <;> cases h; rfl)
      | (unfold decodeCksum at h; split at h <;> first | cases h | (split at h <;> cases h); rfl)
      | cases h

/-- What an operation of an accepting block can do. -/
theorem exec_operation_move (i : Instr) (s t : State) (hop : (encode i).place = .request) (h : exec i s = .next t) :
    Move s t := by
  cases i <;> first | (cases hop; done) | skip
  all_goals
    simp only [exec, execCkClr, execCkAdd, execCksum, execHexdec, execBuildE, execBuildW, execBuildV, execBuildR,
      execSend, execSync] at h
    obtain ⟨_, rfl⟩ | ⟨hp, ha, rfl⟩ | ⟨hp, ha, h⟩ := State.accept_cases _ _ _ h
    · exact .stay
    · exact .refuse hp ha
  case ckClr => cases h; exact .checksum hp ha _
  case ckAdd imm8 => cases h; exact .checksum hp ha _
  case cksum n9 =>
    split at h
    · cases h; exact .illegal hp ha
    · cases h; exact .checksum hp ha _
  case hexdec =>
    obtain ⟨e, rfl⟩ | ⟨hd, _, rfl⟩ := State.onLine_cases _ _ _ h
    · exact .formatError hp ha e
    · obtain ⟨e, he⟩ | he | ⟨ty, he⟩ := s.decodeTyped_cases hd
      · rw [he]; exact .formatError hp ha e
      · rw [he]
        obtain ⟨e, he⟩ | ⟨d, cks, hd', _, he⟩ := s.dataRecord_cases hd
        · rw [he]; exact .formatError hp ha e
        · rw [he]; exact .data hp ha hd d cks hd'
      · rw [he]; exact .skip hp ha hd ty
  case buildE => cases h; exact .frame hp ha .erase _ _ _ rfl
  case buildR => cases h; exact .frame hp ha .run _ _ _ rfl
  case buildW =>
    cases h
    obtain ⟨_, he⟩ | ⟨_, _, he⟩ | ⟨_, hc, he⟩ := s.frameRecord_cases .write <;> rw [he]
    · exact .buildFault hp ha _ (.inl rfl)
    · exact .buildFault hp ha _ (.inr rfl)
    · exact .frame hp ha _ _ _ _ (by rw [lengthField_toNat _ hc, State.recordData_length])
  case buildV =>
    cases h
    obtain ⟨_, he⟩ | ⟨_, _, he⟩ | ⟨_, hc, he⟩ := s.frameRecord_cases .verify <;> rw [he]
    · exact .buildFault hp ha _ (.inl rfl)
    · exact .buildFault hp ha _ (.inr rfl)
    · exact .frame hp ha _ _ _ _ (by rw [lengthField_toNat _ hc, State.recordData_length])
  case send =>
    split at h
    · cases h; exact .sendRejected hp ha _ (.inl rfl)
    · next hs =>
      split at h
      · cases h; exact .sendRejected hp ha _ (.inr rfl)
      · next hv =>
        obtain ⟨_, rfl⟩ | ⟨_, hl, rfl⟩ := State.sendPacket_cases _ _ h
        · exact .sendLinkError hp ha
        · exact .sendPacket hp ha (by simpa using hs) (by simpa using hv) hl
  case sync =>
    obtain ⟨_, rfl⟩ | ⟨_, rfl⟩ := State.sendSyncByte_cases _ _ h
    · exact .syncLinkError hp ha
    · exact .syncIssue hp ha

/-- What a request word can do. -/
theorem request_move (s t : State) (w : Word) (h : s.request w = .next t) : Move s t := by
  unfold State.request at h
  split at h
  · obtain ⟨_, rfl⟩ | ⟨hp, ha, rfl⟩ | ⟨hp, ha, h⟩ := State.accept_cases _ _ _ h
    · exact .stay
    · exact .refuse hp ha
    · cases h; exact .illegal hp ha
  · next i hi => exact exec_operation_move i s t (decodeRequest_operation w i hi) h

/-- What a host action in an idle block can do. -/
theorem hostAct_move (s t : State) (a : HostAct) (hp : s.phase = .idle) (h : s.hostAct a = .next t) : Move s t := by
  cases a with
  | request w => exact request_move s t w h
  | line cs =>
    simp only [State.hostAct, State.hostLine] at h
    split at h
    · cases h
    · next hin => cases h; exact .hostLine hp cs ((lineFits_iff _).mp (by simpa using hin))
  | lineByte a b =>
    simp only [State.hostAct, State.hostLineByte] at h
    split at h
    · cases h
    · next hin => cases h; exact .hostLineByte hp a b ((lineFits_iff _).mp (by simpa using hin))
  | lineLen n =>
    simp only [State.hostAct, State.hostLineLen] at h
    split at h
    · cases h
    · next hin => cases h; exact .hostLineLen hp n ((lineFits_iff _).mp (by simpa using hin))
  | ckbuf a bs =>
    simp only [State.hostAct, State.hostCkbuf] at h
    split at h
    · cases h
    · next hin => cases h; exact .hostCkbuf hp a bs (Nat.not_lt.mp hin)

/-- What SEND's response step can do. -/
theorem sendResponse_move (s t : State) (hp : s.phase = .sendWait) (h : s.sendResponse = .next t) : Move s t := by
  unfold State.sendResponse at h
  split at h
  · cases h; exact .waitFatal (by simp [hp]) _ (.inl rfl)
  · split at h
    · cases h; exact .stay
    · next b rest hrx =>
      by_cases hb : b = ackByte
      · subst hb
        simp only [decodeResponse, if_pos, exec, execRespAck, State.onResponse, hp] at h
        cases h
        exact .response hp _ rest hrx _ (.inl ⟨rfl, rfl⟩)
      · by_cases hb' : b = nackByte
        · subst hb'
          have hd : decodeResponse nackByte = .respNack := rfl
          simp only [hd, if_pos, exec, execRespNack, State.onResponse, hp] at h
          cases h
          exact .response hp _ rest hrx _ (.inr (.inl ⟨rfl, rfl⟩))
        · have hd : decodeResponse b = .respUndefined b := by simp [decodeResponse, hb, hb']
          simp only [hd, if_pos, exec, execRespUndefined, State.onResponse, hp] at h
          cases h
          exact .response hp _ rest hrx _ (.inr (.inr ⟨hb, hb', rfl⟩))

/-- A state that differs only in the model's own fields: the agenda, the host's queue and the inputs of the step. -/
def Fetched (s u : State) : Prop :=
  u = { s with hostQ := u.hostQ, agenda := u.agenda, event := u.event, draw := u.draw }

theorem Fetched.refl (s : State) : Fetched s s := rfl

/-- A move leaves the agenda, the host's queue and the inputs of the step as they are. -/
theorem Move.keeps_own_fields {s t : State} (h : Move s t) :
    t.agenda = s.agenda ∧ t.hostQ = s.hostQ ∧ t.event = s.event ∧ t.draw = s.draw := by
  cases h with
  | response hp b rest hrx t ht => obtain ⟨_, rfl⟩ | ⟨_, rfl⟩ | ⟨_, _, rfl⟩ := ht <;> exact ⟨rfl, rfl, rfl, rfl⟩
  | _ => exact ⟨rfl, rfl, rfl, rfl⟩

/-- A move leaves CONFIG as it is (10_state.md R21). -/
theorem Move.keeps_config {s t : State} (h : Move s t) : t.config = s.config := by
  cases h with
  | response hp b rest hrx t ht => obtain ⟨_, rfl⟩ | ⟨_, rfl⟩ | ⟨_, _, rfl⟩ := ht <;> rfl
  | _ => rfl

/-- What a block's own turn can do. -/
theorem blockTurn_move (s t : State) (ev : LinkEvent) (draw : Nat) (h : s.blockTurn ev draw = .next t) :
    ∃ u, Fetched s u ∧ u.agenda = s.agenda ∧ u.hostQ = s.hostQ ∧ Move u t := by
  unfold State.blockTurn at h
  split at h
  · cases h; exact ⟨s, rfl, rfl, rfl, .stay⟩
  · next hp => exact ⟨s.sample ev draw, rfl, rfl, rfl, sendResponse_move _ t hp h⟩
  · next hp =>
    cases h
    refine ⟨s.sample ev draw, rfl, rfl, rfl, ?_⟩
    have hp' : (s.sample ev draw).phase = .hsWait := hp
    obtain ⟨_, he⟩ | ⟨_, hr, he⟩ | ⟨_, _, he⟩ | ⟨_, _, he⟩ := (s.sample ev draw).syncReady_cases <;> rw [he]
    · exact .waitFatal (by rw [hp']; decide) _ (.inr (.inl rfl))
    · exact .syncReady hp' hr
    · exact .waitFatal (by rw [hp']; decide) _ (.inr (.inr rfl))
    · exact .stay
  · next hp =>
    cases h
    refine ⟨s.sample ev draw, rfl, rfl, rfl, ?_⟩
    have hp' : (s.sample ev draw).phase = .hsRead := hp
    obtain ⟨_, he⟩ | ⟨_, _, he⟩ | ⟨_, hr, he⟩ := (s.sample ev draw).syncRead_cases <;> rw [he]
    · exact .waitFatal (by rw [hp']; decide) _ (.inl rfl)
    · exact .stay
    · exact .syncComplete hp' hr

/-- What a turn can do: reset, or a move from a state it has fetched, which keeps the agenda, and the host's queue but for
the action taken. -/
theorem turn_cases (s t : State) (tn : Turn) (h : s.turn tn = .next t) :
    (tn = .reset ∧ t = s.applyReset) ∨
      (tn ≠ .reset ∧ ∃ u, Fetched s u ∧ u.agenda = s.agenda ∧ (u.hostQ = s.hostQ ∨ ∃ a, s.hostQ = a :: u.hostQ) ∧
        Move u t) := by
  cases tn with
  | host ev =>
    refine .inr ⟨by simp, ?_⟩
    simp only [State.turn, State.hostTurn] at h
    split at h
    · cases h; exact ⟨s, rfl, rfl, .inl rfl, .stay⟩
    · next hp =>
      split at h
      · cases h; exact ⟨s, rfl, rfl, .inl rfl, .stay⟩
      · next a rest hq =>
        refine ⟨State.sample { s with hostQ := rest } ev s.draw, ?_, rfl, .inr ⟨a, hq⟩,
          hostAct_move _ t a (by simpa using hp) h⟩
        rfl
  | block ev draw =>
    obtain ⟨u, hu, ha, hq, hm⟩ := blockTurn_move s t ev draw h
    exact .inr ⟨by simp, u, hu, ha, .inl hq, hm⟩
  | device bs => cases h; exact .inr ⟨by simp, s, rfl, rfl, .inl rfl, .device bs⟩
  | reset => cases h; exact .inl ⟨rfl, rfl⟩

/-- Everything a step can do: reset where it is the next turn, or one move from a state that differs from `s` only in the
model's own fields. -/
theorem step_cases (s t : State) (h : step s = .next t) :
    (∃ rest, s.agenda = .reset :: rest ∧ t = State.applyReset { s with agenda := rest }) ∨
      (s.noResetNext ∧ ∃ u, Fetched s u ∧ u.agenda = s.agenda.tail ∧
        (u.hostQ = s.hostQ ∨ ∃ a, s.hostQ = a :: u.hostQ) ∧ Move u t) := by
  unfold step State.nextTurn at h
  split at h
  · next hnil =>
    cases h
    exact .inr ⟨by simp [State.noResetNext, hnil], s, rfl, by simp [hnil], .inl rfl, .stay⟩
  · next tn rest hcons =>
    obtain ⟨rfl, rfl⟩ | ⟨hne, u, hu, ha, hq, hm⟩ := turn_cases _ t tn h
    · exact .inl ⟨rest, hcons, rfl⟩
    · refine .inr ⟨by simpa [State.noResetNext, hcons] using hne, u, ?_, by simpa [hcons] using ha, hq, hm⟩
      unfold Fetched at hu ⊢
      rw [hu]

/-- A step takes the oldest turn off the agenda. -/
theorem step_agenda (s t : State) (h : step s = .next t) : t.agenda = s.agenda.tail := by
  obtain ⟨rest, ha, rfl⟩ | ⟨_, u, _, ha, _, hm⟩ := step_cases s t h
  · rw [ha]
    rfl
  · rw [hm.keeps_own_fields.1, ha]

end Sys2Proof.Machine
end

