-- ==== Sys2Proof/Tests/Slice0.lean ====
section
/-! SUPPORT. Tests of the model against the spec's own words, tables and vectors (95_test_vectors.md), one step each; and
for every statement with hypotheses a concrete state and operands that meet them. -/
namespace Sys2Proof.Tests
open Sys2Proof Sys2Proof.Machine

/-! ### Helpers -/

/-- The next state of an outcome, if it is one. -/
def nextOf (o : StepResult) : Option State :=
  match o with
  | .next t => some t
  | .fault _ => none
  | .refused _ => none

/-- The STATUS word of the next state. -/
def statusOf (o : StepResult) : Option Word := (nextOf o).map fun t => t.status.word

/-- The next state, looked at through `f`. -/
def see {α : Type} (o : StepResult) (f : State → α) : Option α := (nextOf o).map f

/-- ASCII characters as bytes. -/
def ascii (cs : List Char) : List Byte := cs.map fun c => BitVec.ofNat 8 c.toNat

/-- After reset, with this line in LINEBUF. -/
def withLine (cs : List Byte) : State :=
  { State.reset with mem := { Memory.reset with line := writeBytes [] 0 cs }, lineLen := cs.length }

/-- After reset, with a line of these characters. -/
def lined (cs : List Char) : State := withLine (ascii cs)

/-- A block with CONFIG.HEX_LC = 1. -/
def lowerCase (s : State) : State := { s with config := { s.config with hexLc := true } }

/-- After reset, with these bytes in CKBUF. -/
def withCkbuf (bs : List Byte) : State := { State.reset with mem := { Memory.reset with ckb := writeBytes [] 0 bs } }

/-- After reset, with this record. -/
def withRecord (addr : BitVec 16) (data : List Byte) : State :=
  { State.reset with
    record := { RecordRegs.reset with count := BitVec.ofNat 8 data.length, addr := addr }
    mem := { Memory.reset with recd := writeBytes [] 0 data }
    status := { Status.reset with recValid := true } }

/-- After a SYNC that completed: "Synced" of 95_test_vectors.md 2.4. -/
def synced : State :=
  { State.reset with
    status := { Status.reset with result := .ok, linkSynced := true }
    mem := { Memory.reset with did := writeBytes [] 0 (List.replicate 24 0x55) }
    tx := [0x08] }

/-- The Erase packet, P_E of 95_test_vectors.md (vector F1). -/
def erasePacket : List Byte := [0x07, 0x0E, 0x06, 0x45, 0x00, 0x00, 0x00, 0x00, 0x00, 0xB5]

/-- Synced, with the Erase packet built. -/
def built : State :=
  { synced with
    mem := { synced.mem with pkt := writeBytes [] 0 erasePacket }
    pktLen := 10, ckacc := 0x4B
    status := { synced.status with pktValid := true } }

/-- The Erase packet sent, and `bs` come back from the device; the block's turn with `ev` and `draw` is next. -/
def sent (bs : List Byte) (ev : LinkEvent) (draw : Nat) : State :=
  { built with
    phase := .sendWait, tx := 0x08 :: erasePacket, rx := bs, agenda := [.block ev draw]
    status := { built.status with pktValid := false } }

/-- SYNC issued after reset, in the wait phase `p`, with `bs` in RX; the block's turn with `ev` is next. -/
def syncing (p : Phase) (bs : List Byte) (ev : LinkEvent) : State :=
  { State.reset with phase := p, tx := [0x08], rx := bs, agenda := [.block ev 0] }

/-- Aborted by an illegal word (vector A1). -/
def aborted : State :=
  { State.reset with
    status := { Status.reset with result := .illegalOp, fault := .illegalOp, aborted := true } }

/-! ### Well-formedness: a term each check refuses -/

theorem test_wf_cksum_257 : (Instr.cksum 257).wellFormed = false := by decide
theorem test_wf_cksum_256 : (Instr.cksum 256).wellFormed = true := by decide
theorem test_wf_resp_undefined_06 : (Instr.respUndefined 0x06).wellFormed = false := by decide
theorem test_wf_resp_undefined_07 : (Instr.respUndefined 0x07).wellFormed = false := by decide
theorem test_wf_hex_type_other_00 : (Instr.hexTypeOther 0x00).wellFormed = false := by decide

/-! ### Decoding: words written out bit by bit from 30_encoding.md R80 and R81 (31:25, N9, IMM8, 7:4, OP) -/

theorem test_decode_ckClr : decodeRequest 0b00000000000000000000000000000001 = .ok .ckClr := by decide
theorem test_decode_ckAdd : decodeRequest 0b00000000000000000010000000000010 = .ok (.ckAdd 0x20) := by decide
theorem test_decode_cksum : decodeRequest 0b00000000000100000000000000000011 = .ok (.cksum 16) := by decide
theorem test_decode_hexdec : decodeRequest 0b00000000000000000000000000000100 = .ok .hexdec := by decide
theorem test_decode_buildE : decodeRequest 0b00000000000000000000000000000101 = .ok .buildE := by decide
theorem test_decode_buildW : decodeRequest 0b00000000000000000000000000000110 = .ok .buildW := by decide
theorem test_decode_buildV : decodeRequest 0b00000000000000000000000000000111 = .ok .buildV := by decide
theorem test_decode_buildR : decodeRequest 0b00000000000000000000000000001000 = .ok .buildR := by decide
theorem test_decode_send : decodeRequest 0b00000000000000000000000000001001 = .ok .send := by decide
theorem test_decode_sync : decodeRequest 0b00000000000000000000000000001010 = .ok .sync := by decide

/-! Wire bytes, from 30_encoding.md R91, R93, R94, R96, R97. -/

theorem test_decode_pktCmdErase : decode ⟨.packetByte3, 0b01000101⟩ = .ok .pktCmdErase := by decide
theorem test_decode_pktCmdWrite : decode ⟨.packetByte3, 0b01010111⟩ = .ok .pktCmdWrite := by decide
theorem test_decode_pktCmdVerify : decode ⟨.packetByte3, 0b10110010⟩ = .ok .pktCmdVerify := by decide
theorem test_decode_pktCmdRun : decode ⟨.packetByte3, 0b01010010⟩ = .ok .pktCmdRun := by decide
theorem test_decode_pktPreamble0 : decode ⟨.packetByte0, 0b00000111⟩ = .ok .pktPreamble0 := by decide
theorem test_decode_pktPreamble1 : decode ⟨.packetByte1, 0b00001110⟩ = .ok .pktPreamble1 := by decide
theorem test_decode_syncByte : decode ⟨.txHandshake, 0b00001000⟩ = .ok .syncByte := by decide
theorem test_decode_respAck : decode ⟨.rxResponse0, 0b00000110⟩ = .ok .respAck := by decide
theorem test_decode_respNack : decode ⟨.rxResponse0, 0b00000111⟩ = .ok .respNack := by decide
theorem test_decode_respUndefined : decode ⟨.rxResponse0, 0b01000010⟩ = .ok (.respUndefined 0x42) := by decide
theorem test_decode_hexTypeData : decode ⟨.hexType, 0b00000000⟩ = .ok .hexTypeData := by decide
theorem test_decode_hexTypeOther : decode ⟨.hexType, 0b00000100⟩ = .ok (.hexTypeOther 0x04) := by decide
/-- An unrotated V is no command byte on the wire (30_encoding.md R93). -/
theorem test_decode_raw_verify_byte : decode ⟨.packetByte3, 0x56⟩ = .error .noSuchByte := by decide
theorem test_decode_not_a_byte : decode ⟨.rxResponse0, 0x100⟩ = .error .notAByte := by decide

/-- The wire rows of spec/opcode_table.json as the table writes them: place, mask, match. -/
theorem test_wire_rows :
    ([.pktCmdErase, .pktCmdWrite, .pktCmdVerify, .pktCmdRun, .pktPreamble0, .pktPreamble1, .syncByte, .respAck, .respNack,
      .hexTypeData] : List Instr).map Instr.row =
      [⟨.packetByte3, 0xFF, 0x45⟩, ⟨.packetByte3, 0xFF, 0x57⟩, ⟨.packetByte3, 0xFF, 0xB2⟩, ⟨.packetByte3, 0xFF, 0x52⟩,
        ⟨.packetByte0, 0xFF, 0x07⟩, ⟨.packetByte1, 0xFF, 0x0E⟩, ⟨.txHandshake, 0xFF, 0x08⟩, ⟨.rxResponse0, 0xFF, 0x06⟩,
        ⟨.rxResponse0, 0xFF, 0x07⟩, ⟨.hexType, 0xFF, 0x00⟩] := by decide

/-! Illegal words, vectors A1 to A7. -/

theorem test_illegal_A1 : decodeRequest 0x00000000 = .error .unassignedOp := by decide
theorem test_illegal_A2 : decodeRequest 0x0000000B = .error .unassignedOp := by decide
theorem test_illegal_A3 : decodeRequest 0x00000010 = .error .reservedBits := by decide
theorem test_illegal_A4 : decodeRequest 0x80000001 = .error .reservedBits := by decide
theorem test_illegal_A5 : decodeRequest 0x0000FF01 = .error .immNotZero := by decide
theorem test_illegal_A6 : decodeRequest 0x02000003 = .error .reservedBits := by decide
theorem test_illegal_A7 : decodeRequest 0x01010003 = .error .lengthTooLarge := by decide
/-- N9 with an operation other than CKSUM (30_encoding.md R82). -/
theorem test_illegal_length : decodeRequest 0x00010009 = .error .lengthNotZero := by decide

/-! Table words: the bits of spec/opcode_table.json. -/

theorem test_table_ckClr : decodeTableWord 32 0x00000001 = some .ckClr := by decide
theorem test_table_cmdVerify : decodeTableWord 8 0xB2 = some .pktCmdVerify := by decide
theorem test_table_respAck : decodeTableWord 8 0x06 = some .respAck := by decide
theorem test_table_hexTypeData : decodeTableWord 8 0x00 = some .hexTypeData := by decide
theorem test_fetch_sync_byte : see (step (State.reset.withFetchWord 8 0x08)) (·.tx) = some [0x08] := by decide
theorem test_fetch_verify :
    see (step (State.reset.withFetchWord 8 0xB2)) (fun t => readCell t.mem.pkt 3) = some 0xB2 := by decide
/-- The first word an idle block gets after reset is the one placed (vector A1). -/
theorem test_fetch_illegal : statusOf (step (State.reset.withFetchWord 32 0)) = some 0x000E004E := by decide

/-! ### Checksum generator: vectors CK1 to CK12 -/

theorem test_ckClr_CK1 :
    see (exec .ckClr { State.reset with ckacc := 0x5A }) (fun t => (t.ckacc, t.ckOut, t.status.word)) =
      some (0x00, 0x00, 1) := by decide
theorem test_ckAdd_CK2 :
    see (exec (.ckAdd 0x20) { State.reset with ckacc := 0xF0 }) (fun t => (t.ckacc, t.ckOut)) = some (0x10, 0xF0) := by
  decide
theorem test_ckAdd_CK3 :
    see (exec (.ckAdd 0x01) { State.reset with ckacc := 0xFF }) (fun t => (t.ckacc, t.ckOut)) = some (0x00, 0x00) := by
  decide
theorem test_cksum_CK6 :
    see (exec (.cksum 7) (withCkbuf [0x06, 0x45, 0, 0, 0, 0, 0])) (fun t => (t.ckacc, t.ckOut)) = some (0x4B, 0xB5) := by
  decide
theorem test_cksum_CK7 :
    see (exec (.cksum 0) { State.reset with ckacc := 0x99 }) (fun t => (t.ckacc, t.ckOut)) = some (0x00, 0x00) := by decide
theorem test_cksum_257_CK12 : statusOf (State.reset.request 0x01010003) = some 0x000E004E := by decide

/-! ### Record parser: vectors H1 to H23 -/

theorem test_hexdec_H1 :
    see (exec .hexdec (lined [':', '0', '2', '0', '0', '1', '0', '0', '0', '1', '2', 'A', 'B', '3', '1']))
      (fun t => (t.status.word, t.record, readBytes t.mem.recd 0 3)) =
      some (0x00000101, { count := 2, addr := 0x0010, type := 0x00, cks := 0x31 }, [0x12, 0xAB, 0x00]) := by decide
theorem test_hexdec_H15 :
    statusOf (exec .hexdec (lined [':', '0', '1', '0', '0', '0', '0', '0', '0', '4', '1'])) = some 0x00B60076 := by decide
theorem test_hexdec_H20_lower_case_off :
    statusOf (exec .hexdec (lined [':', '0', 'a', '0', '0', '0', '0', '0', '0', '0', '0'])) = some 0x00260066 := by decide
theorem test_hexdec_H21_lower_case_on :
    statusOf (exec .hexdec (lowerCase (lined [':', '0', 'a', '0', '0', '0', '0', '0', '0', '0', '0']))) =
      some 0x00B60076 := by decide
/-- A CR ends the line (vector H18). -/
theorem test_hexdec_H18 :
    statusOf (exec .hexdec (withLine (ascii [':', '0', '0', '0', '0', '0', '0', '0', '0'] ++ [0x0D, 0x30, 0x30]))) =
      some 0x00960076 := by decide
theorem test_hexdec_H10 : statusOf (exec .hexdec State.reset) = some 0x00060056 := by decide
/-- Trailing characters are ignored (vector H5). -/
theorem test_hexTypeData_H5 :
    statusOf (exec .hexTypeData (lined [':', '0', '0', '0', '0', '0', '0', '0', '0', '0', '0', '1', '2'])) =
      some 0x00000101 := by decide
theorem test_hexTypeOther_H7 :
    see (exec (.hexTypeOther 0x01) (lined [':', '0', '0', '0', '0', '0', '0', '0', '1', 'F', 'F']))
      (fun t => (t.status.word, t.diag)) =
      some (0x00000002, [.skip 0x01 (ascii [':', '0', '0', '0', '0', '0', '0', '0', '1', 'F', 'F'])]) := by decide

/-! ### Packet framer: vectors F1 to F20 -/

theorem test_buildE_F1 :
    see (exec .buildE State.reset) (fun t => (t.packet, t.ckacc, t.status.word)) = some (erasePacket, 0x4B, 0x201) := by
  decide
theorem test_buildR_F2 :
    see (exec .buildR State.reset) (fun t => (t.packet, t.ckacc)) =
      some ([0x07, 0x0E, 0x05, 0x52, 0x00, 0x00, 0x00, 0x00, 0xA9], 0x57) := by decide
theorem test_buildW_F3 :
    see (exec .buildW (withRecord 0x0010 [0x12, 0xAB])) (fun t => (t.packet, t.ckacc)) =
      some ([0x07, 0x0E, 0x07, 0x57, 0x00, 0x00, 0x00, 0x10, 0x12, 0xAB, 0xD5], 0x2B) := by decide
theorem test_buildW_F20_no_record : statusOf (exec .buildW State.reset) = some 0x000B004B := by decide
theorem test_buildV_F4 :
    see (exec .buildV (withRecord 0x0010 [0x12, 0xAB])) (fun t => (t.packet, t.ckacc)) =
      some ([0x07, 0x0E, 0x07, 0xB2, 0x00, 0x00, 0x00, 0x80, 0x90, 0x5D, 0xDA], 0x26) := by decide
/-- 251 data bytes do not fit (42_packet_framer.md R183, R180). -/
theorem test_buildV_overflow :
    see (exec .buildV { withRecord 0 [] with record := { RecordRegs.reset with count := 251 } })
      (fun t => (t.status.result, t.status.pktValid, t.pktLen)) = some (.lengthOverflow, false, 0) := by decide
theorem test_pktPreamble0 :
    see (exec .pktPreamble0 State.reset) (fun t => readBytes t.mem.pkt 0 4) = some [0x07, 0, 0, 0] := by decide
theorem test_pktPreamble1 :
    see (exec .pktPreamble1 State.reset) (fun t => readBytes t.mem.pkt 0 4) = some [0, 0x0E, 0, 0] := by decide
theorem test_pktCmdErase :
    see (exec .pktCmdErase State.reset) (fun t => readBytes t.mem.pkt 0 4) = some [0, 0, 0, 0x45] := by decide
theorem test_pktCmdWrite :
    see (exec .pktCmdWrite State.reset) (fun t => readBytes t.mem.pkt 0 4) = some [0, 0, 0, 0x57] := by decide
theorem test_pktCmdVerify :
    see (exec .pktCmdVerify State.reset) (fun t => readBytes t.mem.pkt 0 4) = some [0, 0, 0, 0xB2] := by decide
theorem test_pktCmdRun :
    see (exec .pktCmdRun State.reset) (fun t => readBytes t.mem.pkt 0 4) = some [0, 0, 0, 0x52] := by decide
/-- Entries of the rotl3 table of 95_test_vectors.md X5. -/
theorem test_rotl3 : (rotl3 0x12, rotl3 0xAB, rotl3 0x56, rotl3 0x80, rotl3 0xFF) = (0x90, 0x5D, 0xB2, 0x04, 0xFF) := by
  decide

/-! ### Transmitter: vectors S1 to S11 and Y1 to Y10 -/

theorem test_send_S2_no_packet : statusOf (exec .send synced) = some 0x000C00CC := by decide
theorem test_send_issue :
    see (exec .send built) (fun t => (t.tx, t.phase, t.status.word)) = some (0x08 :: erasePacket, .sendWait, 0x81) := by
  decide
theorem test_send_S8_link_error :
    see (exec .send { built with event := .ioErr }) (fun t => (t.status.word, t.tx)) = some (0x000900C9, [0x08]) := by decide
theorem test_respAck_S5 :
    see (step (sent [0x06, 0x07] .none 1)) (fun t => (t.status.word, t.respLen, readBytes t.mem.resp 0 2, t.rx)) =
      some (0x00000083, 2, [0x06, 0x07], []) := by decide
theorem test_respAck_S4 :
    see (step (sent [0x06, 0x07] .none 0)) (fun t => (t.status.word, t.respLen, t.rx)) = some (0x00000083, 1, [0x07]) := by
  decide
theorem test_respNack_S6 :
    see (step (sent [0x07, 0x0E] .none 1)) (fun t => (t.status.word, readBytes t.mem.resp 0 2)) =
      some (0x000400C4, [0x07, 0x0E]) := by decide
theorem test_respUndefined_S7 :
    see (step (sent [0x42, 0x06] .none 1)) (fun t => (t.status.word, readBytes t.mem.resp 0 2)) =
      some (0x000500C5, [0x42, 0x06]) := by decide
theorem test_sync_flushes :
    see (exec .sync { State.reset with rx := [0x41] }) (fun t => (t.rx, t.tx, t.phase)) = some ([], [0x08], .hsWait) := by
  decide
theorem test_sync_Y4_link_error : statusOf (exec .sync { State.reset with event := .ioErr }) = some 0x00090049 := by decide
theorem test_syncByte : see (exec .syncByte State.reset) (fun t => (t.tx, t.phase)) = some ([0x08], .hsWait) := by decide
theorem test_wait_Y2_timeout : statusOf (step (syncing .hsWait [] .timeout)) = some 0x00070047 := by decide
theorem test_wait_Y3_ioErr : statusOf (step (syncing .hsWait [] .ioErr)) = some 0x00080048 := by decide
/-- 25 bytes: the 25th stays in RX (vector Y8). -/
theorem test_read_Y8 :
    see (step (syncing .hsRead (List.replicate 24 0x55 ++ [0x06]) .none))
      (fun t => (t.status.word, t.rx, readBytes t.mem.did 0 24)) =
      some (0x00000081, [0x06], List.replicate 24 0x55) := by decide
theorem test_read_Y5_waits :
    see (step (syncing .hsRead (List.replicate 10 0x01) .none)) (fun t => (t.phase, t.rx.length)) = some (.hsRead, 10) := by
  decide

/-! ### Acceptance and reset: vectors A10 to A12 -/

theorem test_refused_A10 :
    see (aborted.request 0x00000001) (fun t => (t.status.word, t.ckacc)) = some (0x000E004F, 0x00) := by decide
theorem test_refused_A11 : statusOf (aborted.request 0x00000000) = some 0x000E004F := by decide
theorem test_reset_A12 :
    see (step { aborted with tx := [0x08], rx := [0x41], agenda := [.reset] }) (fun t => (t.status.word, t.tx, t.rx)) =
      some (0, [0x08], []) := by decide
/-- A host write beyond CKBUF is outside the space (20_memory.md R60). -/
theorem test_ckbuf_outside : nextOf (State.reset.hostAct (.ckbuf 250 [1, 2, 3, 4, 5, 6, 7])) = none := by decide

/-! ### Witnesses: for every statement with hypotheses, a state and operands that meet all of them together -/

theorem reset_ready : State.reset.ready := by unfold State.ready; decide
theorem synced_ready : synced.ready := by unfold State.ready; decide
theorem built_ready : built.ready := by unfold State.ready; decide

/-- A line no longer than the least legal MAX_LINE fits. -/
theorem fits (s : State) (h : s.lineLen ≤ Config.leastMaxLine) : s.lineLen ≤ Config.maxLine :=
  Nat.le_trans h (Nat.le_add_left _ _)

/-- The invariant holds of a synced block with a packet built. -/
theorem built_inv : built.Inv where
  memory := by decide
  control :=
    { abortedIdle := by decide, faultFatal := by decide, faultNone := by decide, resultFatal := by decide
      sendWait := by decide, hsWait := by decide, hsRead := by decide, recData := by decide
      lineLen := fits _ (by decide) }
  packet :=
    { held := .inr ⟨0x06, 0x45, 0x00, 0x00, [0x00, 0xB5], by decide, by decide, by decide, by decide, by decide⟩
      valid := by decide }

/-- The invariant holds of a block that waits in HS_WAIT. -/
theorem syncing_inv (ev : LinkEvent) : (syncing .hsWait [] ev).Inv where
  memory := by cases ev <;> decide
  control :=
    { abortedIdle := by cases ev <;> decide, faultFatal := by cases ev <;> decide, faultNone := by cases ev <;> decide, resultFatal := by cases ev <;> decide
      sendWait := by cases ev <;> decide, hsWait := by cases ev <;> decide, hsRead := by cases ev <;> decide, recData := by cases ev <;> decide
      lineLen := fits _ (by show 0 ≤ _; decide) }
  packet := { held := .inl rfl, valid := by cases ev <;> decide }

/-- The invariant holds of an aborted block. -/
theorem aborted_inv : aborted.Inv where
  memory := by decide
  control :=
    { abortedIdle := by decide, faultFatal := by decide, faultNone := by decide, resultFatal := by decide
      sendWait := by decide, hsWait := by decide, hsRead := by decide, recData := by decide
      lineLen := fits _ (by decide) }
  packet := { held := .inl rfl, valid := by decide }

/-- O2 DecodeOfEncode, at the greatest operands. -/
theorem witness_DecodeOfEncode :
    (Instr.cksum 256).wellFormed = true ∧ (Instr.ckAdd 0xFF).wellFormed = true ∧
      (Instr.respUndefined 0x05).wellFormed = true ∧ (Instr.hexTypeOther 0xFF).wellFormed = true := by decide

/-- EncodeOfDecode. -/
theorem witness_EncodeOfDecode : decode ⟨.request, 0x01000003⟩ = .ok (.cksum 256) := by decide

/-- WordDecodesByItsOneRow, its second part: a word its row takes, at the greatest N9. -/
theorem witness_WordDecodesByItsOneRow :
    (Instr.cksum 256).row.place = .request ∧
      (0x01000003 : Word) &&& (Instr.cksum 256).row.mask = (Instr.cksum 256).row.pattern ∧
      (256 : BitVec 9) = (0x01000003 : Word).extractLsb' 16 9 ∧ (256 : BitVec 9).toNat ≤ 256 := by decide

/-- IllegalWordsAreExactlyListed, in a block that is not aborted and in one that is. -/
theorem witness_IllegalWordsAreExactlyListed :
    decodeRequest 0x01010003 = .error .lengthTooLarge ∧
      (State.reset.phase = .idle ∧ State.reset.status.aborted = false) ∧
      (aborted.phase = .idle ∧ aborted.status.aborted = true) := by decide

/-- ChecksumIsNegatedTruncatedSum. -/
theorem witness_ChecksumIsNegatedTruncatedSum : [(0x06 : Byte), 0x45].Perm [0x45, 0x06] := by decide

/-- CkClrClearsAccumulator, CkAddSequenceGivesChecksum, SyncByteRowSends. -/
theorem witness_ready : State.reset.ready ∧ State.reset.event ≠ .ioErr := ⟨reset_ready, by decide⟩

/-- CkAddAddsByte, at the greatest byte. -/
theorem witness_CkAddAddsByte :
    (0x0000FF02 : Word) &&& 0xFFFF00FF = 0x00000002 ∧ (0x0000FF02 : Word).extractLsb' 8 8 = (0xFF : Byte) ∧
      State.reset.ready := ⟨by decide, by decide, reset_ready⟩

/-- CksumSumsBuffer, each clause at its boundary. -/
theorem witness_CksumSumsBuffer :
    256 < (257 : BitVec 9).toNat ∧ (256 : BitVec 9).toNat ≤ 256 ∧ State.reset.ready :=
  ⟨by decide, by decide, reset_ready⟩

/-- The line of vector H1. -/
def lineH1 : State := lined [':', '0', '2', '0', '0', '1', '0', '0', '0', '1', '2', 'A', 'B', '3', '1']

/-- HexdecDecodesDataLines, on the line of vector H1. -/
theorem witness_HexdecDecodesDataLines :
    lineH1.ready ∧ lineH1.lineLen ≤ Config.maxLine ∧ [(0x12 : Byte), 0xAB].length ≤ 255 ∧
      lineH1.hasHeader 2 0x0010 0x00 ∧
      (∀ i b, [(0x12 : Byte), 0xAB][i]? = some b → lineH1.hasPair (9 + 2 * i) b) ∧ lineH1.hasPair 13 0x31 ∧
      lineH1.mem.wf = true := by
  refine ⟨?_, fits _ (by decide), by decide, ⟨by decide, ?_, ?_, ?_, ?_⟩, ?_, ?_,
    State.writeLine_wf State.reset 0 _ (fits lineH1 (by decide)) Memory.reset_wf⟩
  · unfold State.ready; decide
  · exact ⟨0x30, 0x32, 0, 2, by decide, by decide, by decide, by decide, by decide⟩
  · exact ⟨0x30, 0x30, 0, 0, by decide, by decide, by decide, by decide, by decide⟩
  · exact ⟨0x31, 0x30, 1, 0, by decide, by decide, by decide, by decide, by decide⟩
  · exact ⟨0x30, 0x30, 0, 0, by decide, by decide, by decide, by decide, by decide⟩
  · intro i b h
    match i, h with
    | 0, h =>
      obtain rfl : (0x12 : Byte) = b := by simpa using h
      exact ⟨0x31, 0x32, 1, 2, by decide, by decide, by decide, by decide, by decide⟩
    | 1, h =>
      obtain rfl : (0xAB : Byte) = b := by simpa using h
      exact ⟨0x41, 0x42, 10, 11, by decide, by decide, by decide, by decide, by decide⟩
    | i + 2, h => simp at h
  · exact ⟨0x33, 0x31, 3, 1, by decide, by decide, by decide, by decide, by decide⟩

/-- HexdecDecodesEveryWrittenRecord: the same line, written from its record, with a line end behind it. -/
theorem witness_HexdecDecodesEveryWrittenRecord :
    (withLine (lineText 0x0010 0x00 [0x12, 0xAB] 0x31 ++ [0x0D, 0x0A])).ready ∧
      (withLine (lineText 0x0010 0x00 [0x12, 0xAB] 0x31 ++ [0x0D, 0x0A])).lineLen ≤ Config.maxLine ∧
      [(0x12 : Byte), 0xAB].length ≤ 255 ∧
      (withLine (lineText 0x0010 0x00 [0x12, 0xAB] 0x31 ++ [0x0D, 0x0A])).lineChars =
        lineText 0x0010 0x00 [0x12, 0xAB] 0x31 ++ [0x0D, 0x0A] :=
  ⟨by unfold State.ready; decide, fits _ (by decide), by decide,
    readBytes_writeBytes 521 [] 0 (lineText 0x0010 0x00 [0x12, 0xAB] 0x31 ++ [0x0D, 0x0A]) (by decide) rfl⟩

/-- The line of vector H9, an extended-address record. -/
def lineH9 : State := lined [':', '0', '2', '0', '0', '0', '0', '0', '4', 'F', 'F', 'F', 'F', 'F', 'C']

/-- HexdecSkipsOtherTypes, and RecordTypeRowsFinishTheLine, its second part. -/
theorem witness_HexdecSkipsOtherTypes :
    lineH9.ready ∧ lineH9.lineLen ≤ Config.maxLine ∧ (0x04 : Byte) ≠ 0x00 ∧ lineH9.hasHeader 2 0x0000 0x04 := by
  refine ⟨?_, fits _ (by decide), by decide, by decide, ?_, ?_, ?_, ?_⟩
  · unfold State.ready; decide
  · exact ⟨0x30, 0x32, 0, 2, by decide, by decide, by decide, by decide, by decide⟩
  · exact ⟨0x30, 0x30, 0, 0, by decide, by decide, by decide, by decide, by decide⟩
  · exact ⟨0x30, 0x30, 0, 0, by decide, by decide, by decide, by decide, by decide⟩
  · exact ⟨0x30, 0x34, 0, 4, by decide, by decide, by decide, by decide, by decide⟩

/-- RecordTypeRowsFinishTheLine, its first part: the hypotheses of HexdecDecodesDataLines. -/
theorem witness_RecordTypeRowsFinishTheLine :
    lineH1.ready ∧ lineH1.lineLen ≤ Config.maxLine ∧ lineH1.hasHeader 2 0x0010 0x00 ∧ lineH1.hasPair 13 0x31 :=
  ⟨witness_HexdecDecodesDataLines.1, witness_HexdecDecodesDataLines.2.1, witness_HexdecDecodesDataLines.2.2.2.1,
    witness_HexdecDecodesDataLines.2.2.2.2.2.1⟩

/-- HexdecRequiresMarker: the empty line and the line of vector H12. -/
theorem witness_HexdecRequiresMarker :
    State.reset.ready ∧ State.reset.lineLen ≤ Config.maxLine ∧ State.reset.fieldChars.head? ≠ some 0x3A ∧
      (lined [' ', ':']).fieldChars.head? ≠ some 0x3A := ⟨reset_ready, fits _ (by decide), by decide, by decide⟩

/-- The line of vector H14, truncated after the record type. -/
def lineH14 : State := lined [':', '1', '0', '0', '0', '0', '0', '0', '0']

/-- FormatErrorIsFirstFailingCharacter: the line of vector H14 ends in FORMAT_ERROR. -/
theorem witness_FormatErrorIsFirstFailingCharacter :
    lineH14.ready ∧ lineH14.fieldChars.head? = some 0x3A ∧
      ∃ t, exec .hexdec lineH14 = .next t ∧ t.status.result = .formatError := by
  refine ⟨by unfold State.ready; decide, by decide, lineH14.afterFormatError .truncated 9, ?_, rfl⟩
  rfl

/-- Digits of these values stand at every character from 1 on and before `p`. -/
theorem digits_before (s : State) (p : Nat) (vs : List Byte)
    (h : ∀ q < p, 1 ≤ q → isHexDigit s.config.hexLc (s.fieldChars.getD q 0) (vs.getD q 0))
    (hl : p ≤ s.fieldChars.length) : s.digitsBefore p := by
  intro q hq hlt
  refine ⟨s.fieldChars.getD q 0, vs.getD q 0, ?_, h q hlt hq⟩
  rw [List.getD_eq_getElem?_getD, List.getElem?_eq_getElem (by omega)]
  rfl

/-- The line of vector H19, a bad digit at 2. -/
def lineH19 : State := lined [':', '0', 'G', '0', '0', '0', '0', '0', '0']

/-- A line that ends inside its record type pair. -/
def lineCut : State := lined [':', '0', '0', '0', '0', '0', '0', '0']

/-- HexdecReportsFirstFailingCharacter, among the header pairs: a bad digit at 2 (H19), and the end of the line at 8. -/
theorem witness_HexdecReportsFirstFailingCharacter_header :
    (lineH19.ready ∧ lineH19.lineLen ≤ Config.maxLine ∧ lineH19.fieldChars.head? = some 0x3A ∧ lineH19.digitsBefore 2 ∧
      lineH19.fieldChars[2]? = some 0x47 ∧ ∀ v, ¬isHexDigit lineH19.config.hexLc 0x47 v) ∧
    lineCut.ready ∧ lineCut.lineLen ≤ Config.maxLine ∧ lineCut.fieldChars.head? = some 0x3A ∧ lineCut.digitsBefore 8 ∧
      8 = lineCut.fieldChars.length := by
  refine ⟨⟨?_, fits _ (by decide), by decide, digits_before _ _ [] (by decide) (by decide), by decide, ?_⟩,
    ?_, fits _ (by decide), by decide, digits_before _ _ [] (by decide) (by decide), by decide⟩
  · unfold State.ready; decide
  · intro v
    simp [isHexDigit]
  · unfold State.ready; decide

/-- HexdecReportsFirstFailingCharacter, among the data pairs: the line of vector H14 ends at 9, the first of its data. -/
theorem witness_HexdecReportsFirstFailingCharacter_data :
    lineH14.ready ∧ lineH14.lineLen ≤ Config.maxLine ∧ lineH14.fieldChars.head? = some 0x3A ∧
      (∃ count addr, lineH14.hasHeader count addr 0x00 ∧ 9 ≤ 10 + 2 * count.toNat) ∧ lineH14.digitsBefore 9 ∧
      9 = lineH14.fieldChars.length := by
  refine ⟨by unfold State.ready; decide, fits _ (by decide), by decide, ⟨0x10, 0x0000, ⟨by decide, ?_, ?_, ?_, ?_⟩, by decide⟩,
    digits_before _ _ [0, 1] (by decide) (by decide), by decide⟩
  · exact ⟨0x31, 0x30, 1, 0, by decide, by decide, by decide, by decide, by decide⟩
  · exact ⟨0x30, 0x30, 0, 0, by decide, by decide, by decide, by decide, by decide⟩
  · exact ⟨0x30, 0x30, 0, 0, by decide, by decide, by decide, by decide, by decide⟩
  · exact ⟨0x30, 0x30, 0, 0, by decide, by decide, by decide, by decide, by decide⟩

/-- HexdecDecodesDataLines, a lower-case pair where HEX_LC admits it, and no pair where it does not. -/
theorem witness_lower_case_pair :
    (lowerCase (lined [':', '0', 'a'])).hasPair 1 0x0A ∧ ∀ v, ¬isHexDigit (lined [':', '0', 'a']).config.hexLc 0x61 v := by
  refine ⟨⟨0x30, 0x61, 0, 10, by decide, by decide, by decide, by decide, by decide⟩, fun v => ?_⟩
  have h : (lined [':', '0', 'a']).config.hexLc = false := rfl
  rw [h]
  simp [isHexDigit]

/-- HexdecRunsItsRecordTypeRow, for both rows. -/
theorem witness_HexdecRunsItsRecordTypeRow :
    readType lineH1.config.hexLc lineH1.fieldChars = .ok 0x00 ∧
      readType lineH9.config.hexLc lineH9.fieldChars = .ok 0x04 := by decide

/-- A block ready to build, with a record of this count. -/
def counted (count : Byte) : State :=
  { State.reset with record := { RecordRegs.reset with count := count }, status := { Status.reset with recValid := true } }

/-- The BUILD statements, at the greatest count that fits and at the least that does not. -/
theorem witness_builds :
    (counted 250).mem.wf = true ∧ (counted 250).ready ∧ (counted 250).status.recValid = true ∧
      (counted 250).record.count.toNat ≤ 250 ∧ (counted 251).ready ∧ (counted 251).status.recValid = true ∧
      250 < (counted 251).record.count.toNat ∧ State.reset.ready ∧ State.reset.status.recValid = false :=
  ⟨by decide, by unfold State.ready; decide, by decide, by decide, by unfold State.ready; decide, by decide, by decide,
    reset_ready, by decide⟩

/-- VerifySpanRotatesBackToWriteSpan, PacketDependsOnRecordAlone, CkOutIsPacketChecksum and BuiltPacketHoldsItsRows: a
build completes. -/
theorem witness_completed_builds :
    (withRecord 0x1234 [0xAA]).mem.wf = true ∧ (withRecord 0x1234 [0xAA]).ready ∧
      (withRecord 0x1234 [0xAA]).status.recValid = true ∧
      (∃ t, exec .buildW (withRecord 0x1234 [0xAA]) = .next t ∧ t.status.result = .ok) ∧
      (∃ t, exec .buildV (withRecord 0x1234 [0xAA]) = .next t ∧ t.status.result = .ok) ∧
      ∃ t, exec .buildE State.reset = .next t ∧ t.status.result = .ok :=
  ⟨by decide, by unfold State.ready; decide, by decide, ⟨_, rfl, rfl⟩, ⟨_, rfl, rfl⟩, ⟨_, rfl, rfl⟩⟩

/-- VerifySpanRotatesBackToWriteSpan, its last clause: an address of the span above the command byte. -/
theorem witness_VerifySpan_address :
    see (exec .buildW (withRecord 0x1234 [0xAA])) (fun t => decide (4 ≤ 8 ∧ 8 + 1 < t.pktLen.toNat)) = some true := by decide

/-- PacketRowsStoreTheirByte. -/
theorem witness_PacketRowsStoreTheirByte : State.reset.mem.wf = true ∧ State.reset.ready := ⟨by decide, reset_ready⟩

/-- SendChecksLinkThenPacket: a line not synced, and a synced one without a packet. -/
theorem witness_SendChecksLinkThenPacket :
    State.reset.ready ∧ State.reset.status.linkSynced = false ∧ synced.ready ∧ synced.status.linkSynced = true ∧
      synced.status.pktValid = false := ⟨reset_ready, by decide, synced_ready, by decide, by decide⟩

/-- SendTransmitsPacket. -/
theorem witness_SendTransmitsPacket :
    built.ready ∧ built.status.linkSynced = true ∧ built.status.pktValid = true ∧ built.pktLen.toNat ≤ 259 ∧
      built.event ≠ .ioErr := ⟨built_ready, by decide, by decide, by decide, by decide⟩

/-- SendLinkErrors: at the transmit step, and in SEND_WAIT. -/
theorem witness_SendLinkErrors :
    (State.ready { built with event := .ioErr } ∧ built.status.linkSynced = true ∧ built.status.pktValid = true) ∧
      (sent [0x06] .ioErr 0).phase = .sendWait ∧ (sent [0x06] .ioErr 0).status.aborted = false ∧
      (sent [0x06] .ioErr 0).agenda = [.block .ioErr 0] :=
  ⟨⟨by unfold State.ready; decide, by decide, by decide⟩, by decide, by decide, by decide⟩

/-- ResponseRowsClassifyByteZero. -/
theorem witness_ResponseRowsClassifyByteZero :
    (sent [] .none 0).phase = .sendWait ∧ (sent [] .none 0).status.aborted = false := by decide

/-- ReadTakesAnyAdmittedCount, with the greatest count admitted. -/
theorem witness_ReadTakesAnyAdmittedCount :
    (sent (List.replicate 300 0x06) .none 0).mem.wf = true ∧ (sent (List.replicate 300 0x06) .none 0).phase = .sendWait ∧
      (sent (List.replicate 300 0x06) .none 0).rx ≠ [] ∧ LinkEvent.none ≠ .ioErr ∧
      255 ≤ min 255 (sent (List.replicate 300 0x06) .none 0).rx.length := by
  refine ⟨by decide, by decide, ?_, by decide, ?_⟩
  · exact List.cons_ne_nil _ _
  · show 255 ≤ min 255 (List.replicate 300 (0x06 : Byte)).length
    rw [List.length_replicate]
    decide

/-- SyncFlushesAndSendsSyncByte: without and with an I/O error. -/
theorem witness_SyncFlushesAndSendsSyncByte :
    State.reset.ready ∧ State.reset.event ≠ .ioErr ∧ State.ready { State.reset with event := .ioErr } :=
  ⟨reset_ready, by decide, by unfold State.ready; decide⟩

/-- HandshakeWaitFailures: TIMEOUT with RX empty, and IOERR. -/
theorem witness_HandshakeWaitFailures :
    (syncing .hsWait [] .timeout).Inv ∧ (syncing .hsWait [] .timeout).agenda = [.block .timeout 0] ∧
      (syncing .hsWait [] .timeout).rx = [] ∧ (syncing .hsWait [] .ioErr).Inv ∧
      (syncing .hsWait [] .ioErr).agenda = [.block .ioErr 0] :=
  ⟨syncing_inv _, by decide, by decide, syncing_inv _, by decide⟩

/-- HandshakeReadiness: RX readable with TIMEOUT, RX empty without an event, and 23 bytes in HS_READ. -/
theorem witness_HandshakeReadiness :
    (syncing .hsWait [0x55] .timeout).agenda = [.block .timeout 0] ∧ LinkEvent.timeout ≠ .ioErr ∧
      (syncing .hsWait [0x55] .timeout).rx ≠ [] ∧ (syncing .hsWait [] .none).rx = [] ∧
      (syncing .hsRead (List.replicate 23 0x55) .none).phase = .hsRead ∧
      (syncing .hsRead (List.replicate 23 0x55) .none).rx.length < 24 := by decide

/-- DeviceIdRead: 24 bytes, and IOERR. -/
theorem witness_DeviceIdRead :
    (syncing .hsRead (List.replicate 24 0x55) .none).mem.wf = true ∧
      (syncing .hsRead (List.replicate 24 0x55) .none).phase = .hsRead ∧
      (syncing .hsRead (List.replicate 24 0x55) .none).status.aborted = false ∧
      24 ≤ (syncing .hsRead (List.replicate 24 0x55) .none).rx.length ∧
      (syncing .hsRead [] .ioErr).agenda = [.block .ioErr 0] := by decide

/-- SilentDeviceHangsSend. -/
theorem witness_SilentDeviceHangsSend :
    (sent [] .none 0).phase = .sendWait ∧ (sent [] .none 0).rx = [] ∧ (sent [] .none 0).silent = true := by decide

/-- AbortedBlockRefusesAll. -/
theorem witness_AbortedBlockRefusesAll :
    (encode .send).place ≠ .rxResponse0 ∧ (encode .pktCmdRun).place ≠ .rxResponse0 ∧ aborted.phase = .idle ∧
      aborted.status.aborted = true := by decide

/-- BusyBlockTakesNoRequest: an operation, and a host's turn. -/
theorem witness_BusyBlockTakesNoRequest :
    (encode .send).place = .request ∧ (sent [] .none 0).phase ≠ .idle ∧
      State.agenda { sent [] .none 0 with agenda := [.host .none] } = [.host .none] := by decide

/-- FirstFatalResultSticks: a step that aborts. -/
theorem witness_FirstFatalResultSticks :
    (syncing .hsWait [] .timeout).Inv ∧ (syncing .hsWait [] .timeout).noResetNext ∧
      (∃ t, step (syncing .hsWait [] .timeout) = .next t ∧ t.status.aborted = true ∧ t.status.result.isFatal = true) ∧
      aborted.Inv ∧ aborted.noResetNext ∧ (∃ t, step aborted = .next t) ∧ aborted.status.aborted = true :=
  ⟨syncing_inv _, by unfold State.noResetNext; decide, ⟨_, rfl, by decide, by decide⟩, aborted_inv,
    by unfold State.noResetNext; decide, ⟨_, rfl⟩, by decide⟩

/-- AbortedSessionSendsNothing. -/
theorem witness_AbortedSessionSendsNothing :
    aborted.Inv ∧ aborted.status.aborted = true ∧ aborted.noReset ∧
      ∃ t, Host.Core.run Sys2Proof.core 2 aborted = .next t :=
  ⟨aborted_inv, by decide, by unfold State.noReset; decide, ⟨_, rfl⟩⟩

/-- ResetGivesResetTable: in the middle of a handshake. -/
theorem witness_ResetGivesResetTable :
    State.agenda { syncing .hsRead [0x55] .none with agenda := [.reset] } = [.reset] ∧ 258 < Space.pkt.size := by decide

/-- FirstOperationsAfterReset, at the greatest length. -/
theorem witness_FirstOperationsAfterReset : (256 : BitVec 9).toNat ≤ 256 := by decide

/-- StepRunsDecodedInstruction: a request word, and a response byte. -/
theorem witness_StepRunsDecodedInstruction :
    ((State.reset.withFetchWord 32 0x9).phase = .idle ∧ (State.reset.withFetchWord 32 0x9).agenda = [.host .none] ∧
      (State.reset.withFetchWord 32 0x9).hostQ = [.request 0x9] ∧ decodeRequest 0x9 = .ok .send) ∧
      (sent [0x42] .none 0).phase = .sendWait ∧ (sent [0x42] .none 0).agenda = [.block .none 0] ∧
      (sent [0x42] .none 0).rx = [0x42] ∧
      decode ⟨.rxResponse0, (0x42 : Byte).setWidth 32⟩ = .ok (.respUndefined 0x42) := by decide

/-- A block with a packet built whose host's SEND is next. -/
def sending : State := { built with hostQ := [.request 0x9], agenda := [.host .none] }

/-- The step statements over the invariant: StepKeepsMemoryCanonical, StepKeepsControlInvariant, StepKeepsPacketInvariant,
StepAlwaysAnswers, OnlyCompletePacketsAreSent. The step sends a packet. -/
theorem witness_steps :
    sending.Inv ∧ sending.hostInSpace = true ∧
      ∃ t, step sending = .next t ∧ t.tx = sending.tx ++ erasePacket ∧ t.phase ≠ .idle := by
  refine ⟨⟨by decide, ?_, ?_⟩, by decide, ⟨_, rfl, by decide, by decide⟩⟩
  · exact
      { abortedIdle := by decide, faultFatal := by decide, faultNone := by decide, resultFatal := by decide
        sendWait := by decide, hsWait := by decide, hsRead := by decide, recData := by decide
        lineLen := fits _ (by decide) }
  · exact { held := built_inv.packet.held, valid := built_inv.packet.valid }

/-- ConfigConstantLogsOnlyGrow, WaitingBlockWritesNoResult: the same step, no reset. -/
theorem witness_waiting_step :
    sending.noResetNext ∧ ∃ t, step sending = .next t ∧ t.phase ≠ .idle := by
  refine ⟨by unfold State.noResetNext; decide, ⟨_, rfl, by decide⟩⟩

/-- StatusAndConfigWordLayout: each phase, and a LINELEN that a word holds. -/
theorem witness_StatusAndConfigWordLayout :
    State.reset.phase = .idle ∧ (sent [] .none 0).phase = .sendWait ∧ (syncing .hsWait [] .none).phase = .hsWait ∧
      (syncing .hsRead [] .none).phase = .hsRead ∧ lineH1.lineLen < 2 ^ 32 := by decide

/-- FailedSessionStops: each clause. -/
theorem witness_FailedSessionStops :
    (Session.stage ⟨⟨true, true, false⟩, none, .cleanup false⟩ = .cleanup false) ∧
      (Session.stage ⟨⟨true, true, false⟩, none, .handshakeResult⟩ = .handshakeResult ∧ ResultCode.hsTimeout ≠ .ok) ∧
      (Session.stage ⟨⟨true, true, false⟩, none, .eraseResult⟩ = .eraseResult ∧ ResultCode.nack ≠ .ack) ∧
      (Session.stage ⟨⟨false, false, true⟩, none, .openFile⟩ = .openFile ∧
        Session.file ⟨⟨false, false, true⟩, none, .openFile⟩ = none ∧
        (Session.pending ⟨⟨false, false, true⟩, none, .openFile⟩).verify = true) ∧
      (Session.stage ⟨⟨false, true, false⟩, some [], .lineDecoded .write []⟩ = .lineDecoded .write [] ∧
        ResultCode.formatError ≠ .ok ∧ ResultCode.formatError ≠ .skip) ∧
      (Session.stage ⟨⟨false, true, false⟩, some [], .lineResult .write []⟩ = .lineResult .write [] ∧
        ResultCode.nack ≠ .ack) := by decide

/-- A session that starts while the block hangs in SEND_WAIT, with a request left in the host's queue. -/
def restarting : System :=
  { host := { pending := ⟨true, false, false⟩, file := none, stage := .powerOn }
    block := { sent [] .none 0 with hostQ := [.request 0x9] } }

/-- RunComesAfterRequestedPhases: a session that starts, one that opens its file, and one that reaches Run. -/
theorem witness_RunComesAfterRequestedPhases :
    restarting.host.stage = .powerOn ∧ Session.consistent ⟨⟨false, true, true⟩, some [[0x3A]], .openFile⟩ ∧
      Session.consistent ⟨⟨false, false, false⟩, some [], .runBuild⟩ ∧
      (Session.advance ⟨⟨false, false, false⟩, some [], .runBuild⟩ .ack).2 = .issue .buildR ∧
      Session.consistent ⟨⟨false, false, true⟩, some [], .lineDecoded .verify []⟩ ∧
      (Session.advance ⟨⟨false, false, true⟩, some [], .lineDecoded .verify []⟩ .ok).2 = .issue .buildV := by
  refine ⟨rfl, rfl, rfl, rfl, ⟨rfl, by decide⟩, by decide⟩

/-- The host resets a block that waits (60_exceptions.md R260, R262), and what it had queued is gone. -/
theorem test_session_resets_waiting_block :
    (match restarting.step with
      | .next y => some (y.host.stage, y.block.phase, y.block.hostQ)
      | .fault _ => none
      | .refused _ => none) = some (.handshake, .idle, []) := by decide

/-- HostAndDeviceTurnsReachTheirParts: each host action at the edge of its buffer, and a device's turn. -/
theorem witness_HostAndDeviceTurnsReachTheirParts :
    State.reset.mem.wf = true ∧ State.reset.phase = .idle ∧
      State.agenda { State.reset with agenda := [.host .none], hostQ := [.line [0x3A]] } = [.host .none] ∧
      [(0x3A : Byte)].length ≤ Config.maxLine ∧ 520 < Config.maxLine ∧ 521 ≤ Config.maxLine ∧
      254 + [(0x01 : Byte), 0x02].length ≤ 256 ∧
      State.agenda { syncing .hsRead [] .none with agenda := [.device [0x55]] } = [.device [0x55]] := by
  have h : 521 ≤ Config.maxLine := Nat.le_add_left _ _
  exact ⟨by decide, by decide, by decide, Nat.le_trans (by decide) h, h, h, by decide, by decide⟩

/-- The host's writes: a line, one byte of it, its length, and bytes of CKBUF (30_encoding.md R85, 20_memory.md R64). -/
theorem test_host_line :
    see (State.reset.hostAct (.line [0x3A, 0x30])) (fun t => (t.lineLen, t.lineChars)) = some (2, [0x3A, 0x30]) := by decide
theorem test_host_ckbuf :
    see (State.reset.hostAct (.ckbuf 254 [0x01, 0x02])) (fun t => readBytes t.mem.ckb 253 3) = some [0, 1, 2] := by decide

/-- A handshake whose device stays silent: TIMEOUT comes at the first step, and the block is idle ever after. -/
def timedOut : Nat → State
  | 0 => { State.reset with phase := .hsWait, tx := [0x08] }
  | _ + 1 =>
    { State.reset with
      tx := [0x08], event := .timeout
      status := { Status.reset with result := .hsTimeout, fault := .hsTimeout, aborted := true } }

/-- The run of that handshake. -/
def timedOutRun : Run where
  turns _ := .block .timeout 0
  acts _ := []
  state := timedOut
  steps n := by cases n <;> rfl

/-- FairWaitsEndOrHang: a run that is fair and waits in HS_WAIT. -/
theorem witness_FairWaitsEndOrHang : timedOutRun.fair ∧ (timedOutRun.state 0).phase = .hsWait :=
  ⟨⟨fun n _ => ⟨n, Nat.le_refl n, rfl⟩, fun n => ⟨n, Nat.le_refl n, rfl⟩⟩, rfl⟩

end Sys2Proof.Tests
end

/-! PROOFS. The state family (10_state.md): what each operation and each move keeps of the control registers, the logs
and RESULT; the host's writes and the device's bytes; reset; the words the host reads. -/
namespace Sys2Proof.Machine

/-! ### The state a step has fetched -/

theorem Fetched.status_eq {s u : State} (hu : Fetched s u) : u.status = s.status := by rw [hu]
theorem Fetched.phase_eq {s u : State} (hu : Fetched s u) : u.phase = s.phase := by rw [hu]
theorem Fetched.config_eq {s u : State} (hu : Fetched s u) : u.config = s.config := by rw [hu]
theorem Fetched.tx_eq {s u : State} (hu : Fetched s u) : u.tx = s.tx := by rw [hu]
theorem Fetched.diag_eq {s u : State} (hu : Fetched s u) : u.diag = s.diag := by rw [hu]

/-- Fetching a turn leaves everything the control relations speak of as it is. -/
theorem ControlInv.fetched {s u : State} (h : ControlInv s) (hu : Fetched s u) : ControlInv u := by
  rw [hu]
  exact { h with }

/-- Where no reset comes next, a step is a move from a fetched state. -/
theorem step_move {s t : State} (hn : s.noResetNext) (h : step s = .next t) : ∃ u, Fetched s u ∧ Move u t := by
  obtain ⟨rest, ha, -⟩ | ⟨-, u, hu, -, -, hm⟩ := step_cases s t h
  · exact absurd (by rw [ha]; rfl) hn
  · exact ⟨u, hu, hm⟩

/-! ### The relations between the control registers, operation by operation -/

/-- The reset state has the relations between the control registers (10_state.md R40). -/
theorem controlInv_reset : ControlInv State.reset where
  abortedIdle _ := rfl
  faultFatal h := nomatch h
  faultNone _ := rfl
  resultFatal h := nomatch h
  sendWait h := nomatch h
  hsWait h := nomatch h
  hsRead h := nomatch h
  recData h := nomatch h
  lineLen := Nat.zero_le _

/-- Reset brings the relations about, whatever the state (10_state.md R40). -/
theorem State.applyReset_controlInv (s : State) : ControlInv s.applyReset := { controlInv_reset with }

/-- The first fatal result makes the block idle, aborted and faulted at once (60_exceptions.md R242). -/
theorem State.fatal_controlInv {s : State} {c : ResultCode} (hc : c.isFatal = true) (ha : s.status.aborted = false)
    (hrec : s.status.recValid = true → s.record.type = typeData) (hlen : s.lineLen ≤ Config.maxLine) :
    ControlInv (s.fatal c) where
  abortedIdle _ := rfl
  faultFatal _ := by simpa [ha] using hc
  faultNone h := nomatch h
  resultFatal _ := rfl
  sendWait h := nomatch h
  hsWait h := nomatch h
  hsRead h := nomatch h
  recData := hrec
  lineLen := hlen

/-- An operation that ends without a fatal result keeps the relations. -/
theorem ControlInv.finish {s : State} (h : ControlInv s) {r : ResultCode} (hr : r.isFatal = false) :
    ControlInv (s.finish r) :=
  { h with resultFatal := fun hf => by simp [hr] at hf }

/-- In an idle block the relations do not depend on whether a packet is valid. -/
theorem ControlInv.setPktValid {s : State} (h : ControlInv s) (hp : s.phase = .idle) (v : Bool) :
    ControlInv (s.setPktValid v) :=
  { h with sendWait := fun hw => by simp [hp] at hw }

/-- A checksum operation keeps the relations (40_checksum.md R122, R123, R125). -/
theorem ControlInv.checksum {s : State} (h : ControlInv s) (v : Byte) : ControlInv ((s.setCkacc v).finish .ok) := by
  refine ControlInv.finish ?_ rfl
  exact { h with }

/-- A FORMAT_ERROR of a block that is not aborted keeps the relations (41_hex_decoder.md R150). -/
theorem ControlInv.formatError {s : State} (h : ControlInv s) (ha : s.status.aborted = false) (e : FormatErr) :
    ControlInv (s.formatError e) :=
  State.fatal_controlInv rfl ha (fun hv => nomatch hv) h.lineLen

/-- A record decoded from a Data line is a Data record (41_hex_decoder.md R148). -/
theorem ControlInv.dataRecord {s : State} (h : ControlInv s) (hd : LineHeader) (d : List Byte) (cks : Byte) :
    ControlInv (((((s.setRecordFields hd typeData).writeRecd d).setRecordCks cks).setRecValid true).finish .ok) := by
  refine ControlInv.finish ?_ rfl
  exact { h with recData := fun _ => rfl }

/-- A skipped line leaves no valid record (41_hex_decoder.md R149). -/
theorem ControlInv.skipRecord {s : State} (h : ControlInv s) (hd : LineHeader) (ty : Byte) :
    ControlInv (s.skipRecord hd ty) := by
  refine ControlInv.finish ?_ rfl
  exact { h with recData := fun hv => nomatch hv }

/-- A packet built in an idle block keeps the relations (42_packet_framer.md R170). -/
theorem ControlInv.frame {s : State} (h : ControlInv s) (hp : s.phase = .idle) (cmd : Command) (len : Byte)
    (addr : BitVec 16) (body : List Byte) : ControlInv (s.frame cmd len addr body) := by
  refine ControlInv.finish ?_ rfl
  exact { h.setPktValid hp true with }

/-- Where a response is read the block becomes idle (43_transmitter.md R202). -/
theorem ControlInv.readResponse {s : State} (h : ControlInv s) (b : Byte) : ControlInv (s.readResponse b) :=
  { h with
    abortedIdle := fun _ => rfl
    sendWait := fun hw => nomatch hw
    hsWait := fun hw => nomatch hw
    hsRead := fun hw => nomatch hw }

/-- SYNC's completion makes the block idle, so that it may set LINK_SYNCED (43_transmitter.md R217). -/
theorem ControlInv.syncComplete {s : State} (h : ControlInv s) (id : List Byte) : ControlInv (s.syncComplete id) :=
  { h with
    abortedIdle := fun _ => rfl
    resultFatal := fun hf => nomatch hf
    sendWait := fun hw => nomatch hw
    hsWait := fun hw => nomatch hw
    hsRead := fun hw => nomatch hw }

/-- SEND's transmit step enters SEND_WAIT synced and with its packet sent (43_transmitter.md R202, R208). -/
theorem ControlInv.sendPacket {s : State} (h : ControlInv s) (ha : s.status.aborted = false)
    (hs : s.status.linkSynced = true) (bs : List Byte) :
    ControlInv (((s.setPktValid false).transmit bs).setPhase .sendWait) :=
  { h with
    abortedIdle := fun ht => by simp [ha] at ht
    sendWait := fun _ => ⟨hs, rfl⟩
    hsWait := fun hw => nomatch hw
    hsRead := fun hw => nomatch hw }

/-- SYNC's issue step enters HS_WAIT unsynced (43_transmitter.md R212). -/
theorem ControlInv.syncIssue {s : State} (h : ControlInv s) (ha : s.status.aborted = false) (bs : List Byte) :
    ControlInv (((s.setLinkSynced false).rxFlush.transmit bs).setPhase .hsWait) :=
  { h with
    abortedIdle := fun ht => by simp [ha] at ht
    sendWait := fun hw => nomatch hw
    hsWait := fun _ => rfl
    hsRead := fun hw => nomatch hw }

/-- SYNC's readiness step stays unsynced (43_transmitter.md R213). -/
theorem ControlInv.syncReady {s : State} (h : ControlInv s) (hp : s.phase = .hsWait) :
    ControlInv (s.setPhase .hsRead) :=
  { h with
    abortedIdle := fun ha => by simpa [hp] using h.abortedIdle ha
    sendWait := fun hw => nomatch hw
    hsWait := fun hw => nomatch hw
    hsRead := fun _ => h.hsWait hp }

/-- A block that waits is not aborted. -/
theorem ControlInv.not_aborted {s : State} (h : ControlInv s) (hp : s.phase ≠ .idle) : s.status.aborted = false := by
  cases ha : s.status.aborted with
  | false => rfl
  | true => exact absurd (h.abortedIdle ha) hp

/-- SEND's read and what its byte 0 gives keep the relations: an ACK is not fatal, a NACK and an undefined byte are. -/
theorem ControlInv.response {s t : State} (h : ControlInv s) (hp : s.phase = .sendWait) (b : Byte) (rest : List Byte)
    (ht : (b = ackByte ∧ t = ({ s with rx := rest }.readResponse b).finish .ack) ∨
      (b = nackByte ∧ t = ({ s with rx := rest }.readResponse b).fatal .nack) ∨
      (b ≠ ackByte ∧ b ≠ nackByte ∧ t = ({ s with rx := rest }.readResponse b).fatal .undefined)) : ControlInv t := by
  have ha : s.status.aborted = false := h.not_aborted (by simp [hp])
  have htaken : ControlInv { s with rx := rest } := { h with }
  have hread := htaken.readResponse b
  obtain ⟨-, rfl⟩ | ⟨-, rfl⟩ | ⟨-, -, rfl⟩ := ht
  · exact hread.finish rfl
  · exact State.fatal_controlInv rfl ha hread.recData hread.lineLen
  · exact State.fatal_controlInv rfl ha hread.recData hread.lineLen

/-- Every move keeps the relations between the control registers. -/
theorem Move.keeps_controlInv {s t : State} (h : ControlInv s) (hm : Move s t) : ControlInv t := by
  cases hm with
  | stay => exact h
  | refuse => exact h.finish rfl
  | illegal _ ha => exact State.fatal_controlInv rfl ha h.recData h.lineLen
  | checksum _ _ v => exact h.checksum v
  | formatError _ ha e => exact h.formatError ha e
  | data _ _ hd d cks => exact h.dataRecord hd d cks
  | skip _ _ hd ty => exact h.skipRecord hd ty
  | frame hp _ cmd len addr body => exact h.frame hp cmd len addr body
  | buildFault _ ha c hc =>
    exact State.fatal_controlInv (by obtain rfl | rfl := hc <;> rfl) ha h.recData h.lineLen
  | sendRejected _ ha c hc =>
    exact State.fatal_controlInv (by obtain rfl | rfl := hc <;> rfl) ha h.recData h.lineLen
  | sendLinkError _ ha => exact State.fatal_controlInv rfl ha h.recData h.lineLen
  | sendPacket _ ha hs => exact h.sendPacket ha hs _
  | syncLinkError _ ha => exact State.fatal_controlInv rfl ha h.recData h.lineLen
  | syncIssue _ ha => exact h.syncIssue ha _
  | waitFatal hp c hc =>
    exact State.fatal_controlInv (by obtain rfl | rfl | rfl := hc <;> rfl) (h.not_aborted hp) h.recData h.lineLen
  | response hp b rest _ _ ht => exact h.response hp b rest ht
  | syncReady hp => exact h.syncReady hp
  | syncComplete => exact h.syncComplete _
  | hostLine _ _ hin => exact { h with lineLen := hin }
  | hostLineByte => exact { h with }
  | hostLineLen _ _ hin => exact { h with lineLen := hin }
  | hostCkbuf => exact { h with }
  | device => exact { h with }

/-- Every step, reset included, keeps the relations between the control registers. -/
theorem step_keeps_controlInv {s t : State} (h : ControlInv s) (hstep : step s = .next t) : ControlInv t := by
  obtain ⟨rest, -, rfl⟩ | ⟨-, u, hu, -, -, hm⟩ := step_cases s t hstep
  · exact State.applyReset_controlInv _
  · exact hm.keeps_controlInv (h.fetched hu)

/-- Settles O50: each operation keeps the relations, and a step is one of them or reset. -/
theorem stepKeepsControlInvariant : Obligations.StepKeepsControlInvariant :=
  fun _ _ hinv hstep => step_keeps_controlInv hinv.control hstep

/-! ### The first fatal result, and the block that is aborted -/

/-- A move that aborts the block makes FAULT the code it also makes RESULT (60_exceptions.md R242). -/
theorem Move.fault_eq_result {s t : State} (hm : Move s t) (ha : s.status.aborted = false)
    (ht : t.status.aborted = true) : t.status.fault = t.status.result := by
  cases hm with
  | response _ b rest _ _ hcls =>
    obtain ⟨-, rfl⟩ | ⟨-, rfl⟩ | ⟨-, -, rfl⟩ := hcls
    · exact absurd (ha.symm.trans ht) (by decide)
    · exact if_neg (by simp [State.readResponse, ha])
    · exact if_neg (by simp [State.readResponse, ha])
  | illegal | formatError | buildFault | sendRejected | sendLinkError | syncLinkError | waitFatal =>
    simp [State.formatError, State.buildFault, ha]
  | _ => exact absurd (ha.symm.trans ht) (by decide)

/-- In an aborted block a move changes at most RESULT, the host's LINEBUF, LINELEN and CKBUF, and RX. -/
theorem Move.aborted_frame {s t : State} (hm : Move s t) (hp : s.phase = .idle) (ha : s.status.aborted = true) :
    t = { s with
      status := { s.status with result := t.status.result }
      mem := { s.mem with line := t.mem.line, ckb := t.mem.ckb }
      lineLen := t.lineLen, rx := t.rx } := by
  cases hm with
  | stay | refuse | hostLine | hostLineByte | hostLineLen | hostCkbuf | device => rfl
  | waitFatal hw => exact absurd hp hw
  | response hw | syncReady hw | syncComplete hw => rw [hp] at hw; cases hw
  | _ hidle hna => rw [ha] at hna; cases hna

/-- Every instruction but a response row goes through request acceptance (60_exceptions.md R243). -/
theorem exec_eq_accept (i : Instr) (s : State) (hi : (encode i).place ≠ .rxResponse0) :
    ∃ run, exec i s = s.accept run := by
  cases i
  case respAck | respNack | respUndefined => exact absurd rfl hi
  all_goals
    simp only [exec, execCkClr, execCkAdd, execCksum, execHexdec, execBuildE, execBuildW, execBuildV, execBuildR,
      execSend, execSync, execSyncByte, execHexTypeData, execHexTypeOther, execPktPreamble0, execPktPreamble1,
      execPktCmdErase, execPktCmdWrite, execPktCmdVerify, execPktCmdRun, State.storePacketByte]
    exact ⟨_, rfl⟩

/-- An idle aborted block refuses every word, legal or not (60_exceptions.md R243, R244). -/
theorem State.request_aborted (s : State) (w : Word) (hp : s.phase = .idle) (ha : s.status.aborted = true) :
    s.request w = .next s.refuse := by
  unfold State.request
  split
  · exact s.accept_aborted _ hp ha
  · next i hi =>
    obtain ⟨run, hrun⟩ := exec_eq_accept i s (by rw [decodeRequest_operation w i hi]; decide)
    rw [hrun, s.accept_aborted run hp ha]

/-- Settles O43: the step's move gives the code, the invariant that it is fatal, and the frame of an aborted block that
it stays. -/
theorem firstFatalResultSticks : Obligations.FirstFatalResultSticks := by
  intro s t hinv hn hstep
  obtain ⟨u, hu, hm⟩ := step_move hn hstep
  have hs : ControlInv s := hinv.control
  have ht : ControlInv t := step_keeps_controlInv hs hstep
  refine ⟨fun ha ha' => ?_, fun _ => ht.resultFatal, fun ha => ?_,
    fun ha w => s.request_aborted w (hs.abortedIdle ha) ha⟩
  · have heq : t.status.fault = t.status.result := hm.fault_eq_result (by rw [hu.status_eq, ha]) ha'
    exact ⟨heq, heq ▸ ht.faultFatal ha'⟩
  · have hau : u.status.aborted = true := by rw [hu.status_eq, ha]
    have hframe := hm.aborted_frame (by rw [hu.phase_eq, hs.abortedIdle ha]) hau
    exact ⟨(congrArg (·.status.aborted) hframe).trans hau,
      (congrArg (·.status.fault) hframe).trans (congrArg Status.fault hu.status_eq)⟩

/-! ### CONFIG, the logs and RESULT along a step -/

/-- A move appends to TX and DIAG, or leaves them (10_state.md R35, R36). -/
theorem Move.logs_grow {s t : State} (hm : Move s t) : s.tx <+: t.tx ∧ s.diag <+: t.diag := by
  cases hm with
  | response _ b rest _ _ hcls =>
    obtain ⟨-, rfl⟩ | ⟨-, rfl⟩ | ⟨-, -, rfl⟩ := hcls <;> exact ⟨List.prefix_rfl, List.prefix_rfl⟩
  | sendPacket | syncIssue => exact ⟨List.prefix_append _ _, List.prefix_rfl⟩
  | skip | syncComplete => exact ⟨List.prefix_rfl, List.prefix_append _ _⟩
  | _ => exact ⟨List.prefix_rfl, List.prefix_rfl⟩

/-- Settles O54: reset keeps CONFIG and both logs, and any other step is a move, which only appends. -/
theorem configConstantLogsOnlyGrow : Obligations.ConfigConstantLogsOnlyGrow := by
  intro s t hstep
  obtain ⟨rest, -, rfl⟩ | ⟨-, u, hu, -, -, hm⟩ := step_cases s t hstep
  · exact ⟨rfl, List.prefix_rfl, List.prefix_rfl⟩
  · have hlogs := hm.logs_grow
    rw [hu.tx_eq, hu.diag_eq] at hlogs
    exact ⟨hm.keeps_config.trans hu.config_eq, hlogs⟩

/-- A move after which the block waits writes no result: what writes one leaves the block idle. -/
theorem Move.keeps_result_of_waiting {s t : State} (hm : Move s t) (ht : t.phase ≠ .idle) :
    t.status.result = s.status.result := by
  cases hm with
  | stay | sendPacket | syncIssue | syncReady | hostLine | hostLineByte | hostLineLen | hostCkbuf | device => rfl
  | response _ b rest _ _ hcls => obtain ⟨-, rfl⟩ | ⟨-, rfl⟩ | ⟨-, -, rfl⟩ := hcls <;> exact absurd rfl ht
  | refuse hp | checksum hp | data hp | skip hp | frame hp => exact absurd hp ht
  | _ => exact absurd rfl ht

/-- Settles O55: any step that is no reset is a move from a fetched state. -/
theorem waitingBlockWritesNoResult : Obligations.WaitingBlockWritesNoResult := by
  intro s t hn hstep ht
  obtain ⟨u, hu, hm⟩ := step_move hn hstep
  rw [hm.keeps_result_of_waiting ht, hu.status_eq]

/-! ### The host's writes and the device's bytes -/

/-- The clear form of a read from address 0. -/
theorem firstBytes_eq_readBytes (c : Cells) (n : Nat) : firstBytes c n = readBytes c 0 n := by
  apply List.ext_getElem?
  intro i
  by_cases hi : i < n
  · rw [readBytes_getElem? c 0 n i hi]
    simp [firstBytes, hi]
  · rw [List.getElem?_eq_none (by simpa [firstBytes] using hi), List.getElem?_eq_none (by simpa using hi)]

/-- In a canonical space a byte written stands at its address. -/
theorem readCell_writeBytes_inside (size : Nat) (m : Cells) (a : Nat) (bs : List Byte) (hin : a + bs.length ≤ size)
    (h : cellsWf size m = true) (i : Nat) (b : Byte) (hb : bs[i]? = some b) :
    readCell (writeBytes m a bs) (a + i) = b := by
  have hi : i < bs.length := (List.getElem?_eq_some_iff.mp hb).1
  have hget := readBytes_getElem? (writeBytes m a bs) a bs.length i hi
  rw [readBytes_writeBytes size m a bs hin h, hb] at hget
  exact (Option.some.inj hget).symm

/-- With the host's turn next, a step of an idle block is its oldest action, the turn and the action taken off. -/
theorem step_hostAct {s : State} {ev : LinkEvent} {turns : List Turn} {a : HostAct} {acts : List HostAct}
    (hp : s.phase = .idle) (hag : s.agenda = .host ev :: turns) (hq : s.hostQ = a :: acts) :
    step s = State.hostAct { s with agenda := turns, hostQ := acts, event := ev } a := by
  simp only [step, State.nextTurn, hag, State.turn, State.hostTurn, hp, hq]
  rfl

/-- A line of at most MAX_LINE characters is written (30_encoding.md R85). -/
theorem State.hostLine_fits (s : State) (cs : List Byte) (h : cs.length ≤ Config.maxLine) :
    s.hostLine cs = .next { s.writeLine 0 cs with lineLen := cs.length } :=
  if_neg (by rw [(lineFits_iff _).mpr h]; decide)

/-- One byte of LINEBUF is written (20_memory.md R64). -/
theorem State.hostLineByte_fits (s : State) (a : Nat) (b : Byte) (h : a < Config.maxLine) :
    s.hostLineByte a b = .next (s.writeLine a [b]) :=
  if_neg (by rw [(lineFits_iff _).mpr h]; decide)

/-- LINELEN is written (10_state.md R33). -/
theorem State.hostLineLen_fits (s : State) (n : Nat) (h : n ≤ Config.maxLine) :
    s.hostLineLen n = .next { s with lineLen := n } :=
  if_neg (by rw [(lineFits_iff _).mpr h]; decide)

/-- Bytes inside CKBUF are written (30_encoding.md R85). -/
theorem State.hostCkbuf_fits (s : State) (a : Nat) (bs : List Byte) (h : a + bs.length ≤ Space.ckb.size) :
    s.hostCkbuf a bs = .next (s.writeCkb a bs) :=
  if_neg (Nat.not_lt.mpr h)

/-- Settles O59: a step is the host's action on the fetched state, and the laws of the byte spaces say what it wrote. -/
theorem hostAndDeviceTurnsReachTheirParts : Obligations.HostAndDeviceTurnsReachTheirParts := by
  refine ⟨fun s ev turns acts hwf hp hag => ?_, fun s bs turns hag => ?_⟩
  · obtain ⟨hline, hckb, -⟩ := (Memory.wf_iff s.mem).mp hwf
    refine ⟨fun cs hq hfit => ?_, fun a b hq hfit => ?_, fun n hq hfit => ?_, fun a bs hq hfit => ?_⟩
    · refine ⟨_, (step_hostAct hp hag hq).trans (State.hostLine_fits _ cs hfit), ?_, fun c hc => ?_, rfl⟩
      · rw [firstBytes_eq_readBytes]
        exact readBytes_writeBytes _ _ 0 cs (by rwa [Nat.zero_add]) hline
      · exact readCell_writeBytes_outside _ 0 cs c (.inr (by simpa using hc))
    · refine ⟨_, (step_hostAct hp hag hq).trans (State.hostLineByte_fits _ a b hfit), ?_, fun c hc => ?_, rfl⟩
      · exact readCell_writeCell_same _ _ a b hline
      · exact readCell_writeCell_other _ a b c hc
    · exact (step_hostAct hp hag hq).trans (State.hostLineLen_fits _ n hfit)
    · refine ⟨_, (step_hostAct hp hag hq).trans (State.hostCkbuf_fits _ a bs hfit), fun i b hb => ?_, fun c hc => ?_,
        rfl⟩
      · exact readCell_writeBytes_inside _ _ a bs hfit hckb i b hb
      · exact readCell_writeBytes_outside _ a bs c hc
  · simp only [step, State.nextTurn, hag, State.turn, State.deviceTurn]

/-! ### Reset -/

/-- With reset next, a step is reset (70_reset_and_hazards.md R290). -/
theorem step_reset {s : State} {rest : List Turn} (hag : s.agenda = .reset :: rest) :
    step s = .next (State.applyReset { s with agenda := rest }) := by
  simp only [step, State.nextTurn, hag, State.turn]

/-- After reset every byte of every space reads 0x00 (10_state.md R40). -/
theorem State.hostReadByte_of_mem_reset {s : State} (hm : s.mem = Memory.reset) (sp : Space) (a : Nat)
    (ha : a < sp.size) : s.hostReadByte sp a = .ok 0x00 := by
  rw [State.hostReadByte, if_pos ha, hm]
  cases sp <;> rfl

/-- Settles O45: the step's state is the reset table's, read off field by field. -/
theorem resetGivesResetTable : Obligations.ResetGivesResetTable :=
  fun _ _ hag => ⟨_, step_reset hag, rfl, State.hostReadByte_of_mem_reset rfl⟩

/-- PKTBUF holds no packet after reset (10_state.md R40). -/
theorem packetInv_reset : PacketInv State.reset where
  held := .inl rfl
  valid h := nomatch h

/-- Settles O48: each of the three parts of the invariant holds at reset. -/
theorem resetMeetsInvariant : Obligations.ResetMeetsInvariant :=
  ⟨Memory.reset_wf, controlInv_reset, packetInv_reset⟩

/-! ### The words the host reads -/

/-- The multi-bit fields of STATUS at their bits in its word, the reserved bits 0 (10_state.md R22). -/
theorem Status.word_fields (st : Status) :
    st.word.extractLsb' 0 4 = st.result.code ∧ st.word.extractLsb' 4 2 = st.fmtCause.code ∧
      st.word.extractLsb' 10 6 = 0 ∧ st.word.extractLsb' 16 4 = st.fault.code ∧
      st.word.extractLsb' 20 10 = st.fmtPos ∧ st.word.extractLsb' 30 2 = 0 := by
  unfold Status.word
  refine ⟨?_, ?_, ?_, ?_, ?_, ?_⟩
  all_goals
    simp (disch := decide) only [BitVec.extractLsb'_append_eq_of_add_le, BitVec.extractLsb'_append_eq_of_le,
      Nat.reduceSub, BitVec.extractLsb'_eq_self]

/-- The one-bit fields of STATUS at their bits in its word (10_state.md R22). -/
theorem Status.word_flags (st : Status) :
    st.word.getLsbD 6 = st.aborted ∧ st.word.getLsbD 7 = st.linkSynced ∧ st.word.getLsbD 8 = st.recValid ∧
      st.word.getLsbD 9 = st.pktValid := by
  unfold Status.word bit
  refine ⟨?_, ?_, ?_, ?_⟩
  all_goals simp only [BitVec.getLsbD_append, Nat.reduceLT, Nat.reduceSub, if_true, if_false, BitVec.getLsbD_ofBool,
      decide_true, Bool.true_and]

/-- The fields of CONFIG at their bits in its word, the reserved bits 0 (10_state.md R21). -/
theorem ConfigReg.word_layout (c : ConfigReg) :
    c.word.getLsbD 0 = c.baudSel ∧ c.word.getLsbD 1 = c.hexLc ∧ c.word.extractLsb' 2 30 = 0 := by
  obtain ⟨baudSel, hexLc⟩ := c
  revert baudSel hexLc
  decide

/-- Settles O56: the layout of the two words, and every other register zero-extended to 32 bits. -/
theorem statusAndConfigWordLayout : Obligations.StatusAndConfigWordLayout := by
  refine ⟨rfl, rfl, fun s => ?_⟩
  obtain ⟨hresult, hcause, hlow, hfault, hpos, hhigh⟩ := s.status.word_fields
  obtain ⟨haborted, hsynced, hrec, hpkt⟩ := s.status.word_flags
  obtain ⟨hbaud, hlc, hconfig⟩ := s.config.word_layout
  have hphase (p : Phase) (hp : s.phase = p) : s.hostRead .phase = p.code.setWidth 32 := by rw [State.hostRead, hp]
  have hckOut : s.ckOut.toNat = (256 - s.ckacc.toNat) % 256 := BitVec.toNat_ofNat _ _
  have hread {n : Nat} (hn : n ≤ 32) (x : BitVec n) : (x.setWidth 32).toNat = x.toNat :=
    BitVec.toNat_setWidth_of_le hn
  exact ⟨hresult, hcause, haborted, hsynced, hrec, hpkt, hlow, hfault, hpos, hhigh, hbaud, hlc, hconfig,
    hphase .idle, hphase .sendWait, hphase .hsWait, hphase .hsRead,
    hread (by decide) s.ckacc, (hread (by decide) s.ckOut).trans hckOut,
    hread (by decide) s.record.count, hread (by decide) s.record.addr,
    hread (by decide) s.record.type, hread (by decide) s.record.cks,
    hread (by decide) s.pktLen, hread (by decide) s.respLen, Nat.mod_eq_of_lt⟩

end Sys2Proof.Machine

/-! PROOFS. The memory family (20_memory.md): every step keeps the byte spaces canonical and PKTBUF empty or a complete
packet, every step of a host inside its buffers answers, and only complete packets go out on TX. -/
namespace Sys2Proof.Machine

/-! ### The byte spaces -/

theorem Fetched.mem_eq {s u : State} (hu : Fetched s u) : u.mem = s.mem := by rw [hu]

/-- A packet whose length field counts its span fits in PKTBUF (42_packet_framer.md R179). -/
theorem packetBytes_length_le_pktMax (cmd : Command) {len : Byte} (addr : BitVec 16) {body : List Byte}
    (hlen : len.toNat = body.length + 5) : (packetBytes cmd len addr body).length ≤ pktMax := by
  have hlt : len.toNat < 256 := len.isLt
  rw [packetBytes_length]
  simp only [pktMax]
  omega

/-- Every move keeps the byte spaces canonical: what it writes lies inside its space (20_memory.md R61). -/
theorem Move.keeps_memory_wf {s t : State} (h : s.mem.wf = true) (hm : Move s t) : t.mem.wf = true := by
  cases hm with
  | data _ _ hd d cks hlen =>
    have hcount : hd.count.toNat < 256 := hd.count.isLt
    refine State.writeRecd_wf s d ?_ h
    simp only [Space.size, recMax]
    omega
  | frame _ _ cmd len addr body hlen =>
    refine State.writePkt_wf s 0 _ ?_ h
    rw [Nat.zero_add]
    exact packetBytes_length_le_pktMax cmd addr hlen
  | response _ b rest _ _ hcls =>
    have hread := State.readResponse_wf { s with rx := rest } b h
    obtain ⟨-, rfl⟩ | ⟨-, rfl⟩ | ⟨-, -, rfl⟩ := hcls <;> exact hread
  | syncComplete => exact State.writeDid_wf s _ (List.length_take_le _ _) h
  | hostLine _ cs hin => exact State.writeLine_wf s 0 cs (by rwa [Nat.zero_add]) h
  | hostLineByte _ a b hin => exact State.writeLine_wf s a [b] hin h
  | hostCkbuf _ a bs hin => exact State.writeCkb_wf s a bs hin h
  | _ => exact h

/-- Every step, reset included, keeps the byte spaces canonical. -/
theorem step_keeps_memory_wf {s t : State} (h : s.mem.wf = true) (hstep : step s = .next t) : t.mem.wf = true := by
  obtain ⟨rest, -, rfl⟩ | ⟨-, u, hu, -, -, hm⟩ := step_cases s t hstep
  · exact Memory.reset_wf
  · exact hm.keeps_memory_wf (by rwa [hu.mem_eq])

/-- Settles O49: a step is reset, which empties the spaces, or a move, which writes inside them. -/
theorem stepKeepsMemoryCanonical : Obligations.StepKeepsMemoryCanonical :=
  fun _ _ hinv hstep => step_keeps_memory_wf hinv.memory hstep

/-! ### The packet in PKTBUF -/

theorem Fetched.packet_eq {s u : State} (hu : Fetched s u) : u.packet = s.packet := by rw [hu]; rfl

/-- What leaves PKTBUF and PKTLEN as they are, and makes no packet valid, keeps PKTBUF empty or a complete packet. -/
theorem PacketInv.of_packet_kept {s t : State} (h : PacketInv s) (hlen : t.pktLen = s.pktLen)
    (hpkt : t.mem.pkt = s.mem.pkt) (hvalid : t.status.pktValid = true → s.status.pktValid = true) : PacketInv t := by
  have hpacket : t.packet = s.packet := by rw [State.packet, State.packet, hlen, hpkt]
  exact ⟨by rw [hlen, hpacket]; exact h.held, fun hv => hlen ▸ h.valid (hvalid hv)⟩

/-- Fetching a turn leaves the packet and its registers as they are. -/
theorem PacketInv.fetched {s u : State} (h : PacketInv s) (hu : Fetched s u) : PacketInv u := by
  rw [hu]
  exact h.of_packet_kept rfl rfl id

/-- A sequence followed by its checksum sums to 0 (40_checksum.md R126). -/
theorem sum8_append_neg8 (p : List Byte) : sum8 (p ++ [neg8 (sum8 p)]) = 0 := by
  simp [neg8_eq_neg]

/-- The zero bytes of the address are zero as sent, rotated or not (42_packet_framer.md R176). -/
@[simp] theorem spanByte_zero (cmd : Command) : spanByte cmd 0#8 = 0#8 := by
  cases cmd <;> rfl

/-- What Frame writes is a complete packet (42_packet_framer.md R170, R179, R189). -/
theorem packetBytes_shape (cmd : Command) {len : Byte} (addr : BitVec 16) {body : List Byte}
    (hlen : len.toNat = body.length + 5) : packetShape (packetBytes cmd len addr body) := by
  have hlength : (packetBytes cmd len addr body).length = body.length + 9 := packetBytes_length ..
  refine ⟨len, spanByte cmd (cmdByte cmd), spanByte cmd (hi8 addr), spanByte cmd (lo8 addr),
    body.map (spanByte cmd) ++ [neg8 (packetSum cmd len addr body)], ?_, ?_, ?_, ?_, ?_⟩
  · simp [packetBytes, packetSpan]
  · rw [hlength, hlen]; rfl
  · omega
  · cases cmd <;> simp [spanByte, cmdByte]
  · exact sum8_append_neg8 (len :: packetSpan cmd addr body)

/-- After Frame PKTBUF holds, by PKTLEN, exactly the packet written (42_packet_framer.md R170, R179). -/
theorem State.frame_packet {s : State} (hwf : s.mem.wf = true) (cmd : Command) {len : Byte} (addr : BitVec 16)
    {body : List Byte} (hlen : len.toNat = body.length + 5) :
    (s.frame cmd len addr body).packet = packetBytes cmd len addr body := by
  obtain ⟨-, -, -, hpkt, -⟩ := (Memory.wf_iff s.mem).mp hwf
  have hfit := packetBytes_length_le_pktMax cmd addr hlen
  have hpktLen : (s.frame cmd len addr body).pktLen.toNat = (packetBytes cmd len addr body).length := by
    have hlt : len.toNat < 256 := len.isLt
    simp only [State.frame, State.finish_pktLen, State.setPktValid_pktLen, State.setCkacc_pktLen,
      State.setPktLen_pktLen, BitVec.toNat_ofNat, packetBytes_length, packetOverhead]
    omega
  rw [State.packet, hpktLen]
  exact readBytes_writeBytes pktMax s.mem.pkt 0 _ (by rwa [Nat.zero_add]) hpkt

/-- PKTBUF never holds more than the largest packet (42_packet_framer.md R179). -/
theorem PacketInv.pktLen_le {s : State} (h : PacketInv s) : s.pktLen.toNat ≤ pktMax := by
  obtain hzero | ⟨len, _, _, _, _, -, hlength, -, -, -⟩ := h.held
  · rw [hzero]
    exact Nat.zero_le _
  · have hlt : len.toNat < 256 := len.isLt
    rw [State.packet, readBytes_length] at hlength
    simp only [packetOverhead] at hlength
    simp only [pktMax]
    omega

/-- A valid packet is a complete one (10_state.md R26). -/
theorem PacketInv.shape_of_valid {s : State} (h : PacketInv s) (hv : s.status.pktValid = true) :
    packetShape s.packet :=
  h.held.resolve_left (h.valid hv)

/-- Frame leaves a complete packet, which is valid (42_packet_framer.md R170). -/
theorem State.frame_packetInv {s : State} (hwf : s.mem.wf = true) (cmd : Command) {len : Byte} (addr : BitVec 16)
    {body : List Byte} (hlen : len.toNat = body.length + 5) : PacketInv (s.frame cmd len addr body) := by
  have hpacket := s.frame_packet hwf cmd addr hlen
  refine ⟨.inr (hpacket ▸ packetBytes_shape cmd addr hlen), fun _ hzero => ?_⟩
  have hlength := congrArg List.length hpacket
  rw [State.packet, readBytes_length, hzero, packetBytes_length] at hlength
  exact absurd hlength (by simp)

/-- Every move keeps PKTBUF empty or a complete packet: Frame writes a complete one, and no other move touches PKTBUF or
PKTLEN or makes a packet valid. -/
theorem Move.keeps_packetInv {s t : State} (hwf : s.mem.wf = true) (h : PacketInv s) (hm : Move s t) :
    PacketInv t := by
  cases hm with
  | frame _ _ cmd len addr body hlen => exact s.frame_packetInv hwf cmd addr hlen
  | buildFault | sendLinkError | sendPacket => exact h.of_packet_kept rfl rfl nofun
  | response _ b rest _ _ hcls =>
    obtain ⟨-, rfl⟩ | ⟨-, rfl⟩ | ⟨-, -, rfl⟩ := hcls <;> exact h.of_packet_kept rfl rfl id
  | _ => exact h.of_packet_kept rfl rfl id

/-- Every step, reset included, keeps PKTBUF empty or a complete packet. -/
theorem step_keeps_packetInv {s t : State} (hwf : s.mem.wf = true) (h : PacketInv s) (hstep : step s = .next t) :
    PacketInv t := by
  obtain ⟨rest, -, rfl⟩ | ⟨-, u, hu, -, -, hm⟩ := step_cases s t hstep
  · exact packetInv_reset.of_packet_kept rfl rfl id
  · exact hm.keeps_packetInv (by rwa [hu.mem_eq]) (h.fetched hu)

/-- Every step keeps the invariant of the machine. -/
theorem step_keeps_inv {s t : State} (h : s.Inv) (hstep : step s = .next t) : t.Inv where
  memory := step_keeps_memory_wf h.memory hstep
  control := step_keeps_controlInv h.control hstep
  packet := step_keeps_packetInv h.memory h.packet hstep

/-! ### Every step answers -/

/-- Acceptance answers where the operation does. -/
theorem State.accept_answers {s : State} {run : State → StepResult} (h : ∃ t, run s = .next t) :
    ∃ t, s.accept run = .next t := by
  unfold State.accept
  split
  · exact ⟨_, rfl⟩
  · split
    · exact ⟨_, rfl⟩
    · exact h

/-- SEND's transmit step answers while the packet fits in PKTBUF (20_memory.md R61). -/
theorem State.sendPacket_answers {s : State} (hpkt : s.pktLen.toNat ≤ pktMax) : ∃ t, s.sendPacket = .next t := by
  unfold State.sendPacket
  rw [if_neg (Nat.not_lt.mpr hpkt)]
  split <;> exact ⟨_, rfl⟩

/-- SYNC's transmit step always answers. -/
theorem State.sendSyncByte_answers (s : State) : ∃ t, s.sendSyncByte = .next t := by
  unfold State.sendSyncByte
  split <;> exact ⟨_, rfl⟩

/-- A response row always answers. -/
theorem State.onResponse_answers (s : State) (b : Byte) (conclude : State → State) :
    ∃ t, s.onResponse b conclude = .next t := by
  unfold State.onResponse
  split <;> exact ⟨_, rfl⟩

/-- Every instruction answers while the line fits in LINEBUF and the packet in PKTBUF (20_memory.md R61). -/
theorem exec_answers (i : Instr) {s : State} (hline : s.lineLen ≤ Config.maxLine) (hpkt : s.pktLen.toNat ≤ pktMax) :
    ∃ t, exec i s = .next t := by
  cases i
  all_goals
    simp only [exec, execCkClr, execCkAdd, execCksum, execHexdec, execBuildE, execBuildW, execBuildV, execBuildR,
      execSend, execSync, execSyncByte, execHexTypeData, execHexTypeOther, execPktPreamble0, execPktPreamble1,
      execPktCmdErase, execPktCmdWrite, execPktCmdVerify, execPktCmdRun, State.storePacketByte, execRespAck,
      execRespNack, execRespUndefined]
  case respAck | respNack | respUndefined => exact s.onResponse_answers _ _
  all_goals refine State.accept_answers ?_
  case hexdec | hexTypeData | hexTypeOther => exact ⟨_, s.onLine_next _ hline⟩
  case cksum => split <;> exact ⟨_, rfl⟩
  case send =>
    split
    · exact ⟨_, rfl⟩
    · split
      · exact ⟨_, rfl⟩
      · exact State.sendPacket_answers hpkt
  case sync | syncByte => exact State.sendSyncByte_answers _
  all_goals exact ⟨_, rfl⟩

/-- Every request word answers, legal or not (60_exceptions.md R243). -/
theorem State.request_answers {s : State} (w : Word) (hline : s.lineLen ≤ Config.maxLine)
    (hpkt : s.pktLen.toNat ≤ pktMax) : ∃ t, s.request w = .next t := by
  unfold State.request
  split
  · exact State.accept_answers ⟨_, rfl⟩
  · exact exec_answers _ hline hpkt

/-- A host action inside the host's buffers answers (60_exceptions.md R260). -/
theorem State.hostAct_answers {s : State} {a : HostAct} (hin : a.inSpace = true) (hline : s.lineLen ≤ Config.maxLine)
    (hpkt : s.pktLen.toNat ≤ pktMax) : ∃ t, s.hostAct a = .next t := by
  cases a
  case request w => exact State.request_answers w hline hpkt
  all_goals simp only [HostAct.inSpace, decide_eq_true_eq] at hin
  case line cs => exact ⟨_, s.hostLine_fits cs hin⟩
  case lineByte a b => exact ⟨_, s.hostLineByte_fits a b hin⟩
  case lineLen n => exact ⟨_, s.hostLineLen_fits n hin⟩
  case ckbuf a bs => exact ⟨_, s.hostCkbuf_fits a bs hin⟩

/-- The host's turn answers while the host's actions stay inside its buffers. -/
theorem State.hostTurn_answers {s : State} (ev : LinkEvent) (hin : s.hostInSpace = true)
    (hline : s.lineLen ≤ Config.maxLine) (hpkt : s.pktLen.toNat ≤ pktMax) : ∃ t, s.hostTurn ev = .next t := by
  unfold State.hostTurn
  split
  · exact ⟨_, rfl⟩
  · split
    · exact ⟨_, rfl⟩
    · next a rest hq =>
      rw [State.hostInSpace, hq, List.all_cons, Bool.and_eq_true] at hin
      obtain ⟨ha, -⟩ := hin
      exact State.hostAct_answers ha hline hpkt

/-- SEND's response step answers. -/
theorem State.sendResponse_answers {s : State} (hline : s.lineLen ≤ Config.maxLine)
    (hpkt : s.pktLen.toNat ≤ pktMax) : ∃ t, s.sendResponse = .next t := by
  unfold State.sendResponse
  split
  · exact ⟨_, rfl⟩
  · split
    · exact ⟨_, rfl⟩
    · exact exec_answers _ hline hpkt

/-- The block's turn answers, in every phase. -/
theorem State.blockTurn_answers {s : State} (ev : LinkEvent) (draw : Nat) (hline : s.lineLen ≤ Config.maxLine)
    (hpkt : s.pktLen.toNat ≤ pktMax) : ∃ t, s.blockTurn ev draw = .next t := by
  unfold State.blockTurn
  cases s.phase with
  | sendWait => exact (s.sample ev draw).sendResponse_answers hline hpkt
  | idle | hsWait | hsRead => exact ⟨_, rfl⟩

/-- A turn answers while the host's actions stay inside its buffers. -/
theorem State.turn_answers {s : State} (tn : Turn) (hin : s.hostInSpace = true) (hline : s.lineLen ≤ Config.maxLine)
    (hpkt : s.pktLen.toNat ≤ pktMax) : ∃ t, s.turn tn = .next t := by
  cases tn with
  | host ev => exact s.hostTurn_answers ev hin hline hpkt
  | block ev draw => exact s.blockTurn_answers ev draw hline hpkt
  | device bs => exact ⟨_, rfl⟩
  | reset => exact ⟨_, rfl⟩

/-- From the invariant, with the host inside its buffers, a step answers a next state. -/
theorem step_answers {s : State} (h : s.Inv) (hin : s.hostInSpace = true) : ∃ t, step s = .next t := by
  unfold step State.nextTurn
  split
  · exact ⟨_, rfl⟩
  · next tn rest _ =>
    exact State.turn_answers (s := { s with agenda := rest }) tn hin h.control.lineLen h.packet.pktLen_le

/-- A step takes at most the oldest action off the host's queue. -/
theorem step_hostQ {s t : State} (hstep : step s = .next t) : t.hostQ = s.hostQ ∨ ∃ a, s.hostQ = a :: t.hostQ := by
  obtain ⟨rest, -, rfl⟩ | ⟨-, u, -, -, hq, hm⟩ := step_cases s t hstep
  · exact .inl rfl
  · obtain ⟨-, hkept, -, -⟩ := hm.keeps_own_fields
    rwa [hkept]

/-- The host's actions stay inside its buffers along a step. -/
theorem step_keeps_hostInSpace {s t : State} (hin : s.hostInSpace = true) (hstep : step s = .next t) :
    t.hostInSpace = true := by
  unfold State.hostInSpace at hin ⊢
  obtain hq | ⟨a, hq⟩ := step_hostQ hstep
  · rwa [hq]
  · rw [hq, List.all_cons, Bool.and_eq_true] at hin
    exact hin.2

/-- Settles O52: a step faults only beyond LINE, CKB or PKT, which the invariant and the host's duty rule out, and every
step keeps both. -/
theorem stepAlwaysAnswers : Obligations.StepAlwaysAnswers := by
  intro s hinv hin
  obtain ⟨t, hstep⟩ := step_answers hinv hin
  exact ⟨t, hstep, step_keeps_inv hinv hstep, step_keeps_hostInSpace hin hstep⟩

/-! ### What is sent -/

/-- What a move puts on TX: nothing, or in a block that is not aborted SYNC's byte or a valid packet
(43_transmitter.md R203, R204, R212). -/
theorem Move.tx_cases {s t : State} (hm : Move s t) :
    t.tx = s.tx ∨ (s.status.aborted = false ∧
      (t.tx = s.tx ++ [syncChar] ∨ (s.status.pktValid = true ∧ t.tx = s.tx ++ s.packet))) := by
  cases hm with
  | sendPacket _ ha _ hv => exact .inr ⟨ha, .inr ⟨hv, rfl⟩⟩
  | syncIssue _ ha => exact .inr ⟨ha, .inl rfl⟩
  | response _ b rest _ _ hcls =>
    obtain ⟨-, rfl⟩ | ⟨-, rfl⟩ | ⟨-, -, rfl⟩ := hcls <;> exact .inl rfl
  | _ => exact .inl rfl

/-- Settles O53: reset keeps TX, and of the moves only SYNC's issue step and SEND's transmit step append to it; SEND's
packet is valid, so it is complete. -/
theorem onlyCompletePacketsAreSent : Obligations.OnlyCompletePacketsAreSent := by
  intro s t hinv hstep
  obtain ⟨rest, -, rfl⟩ | ⟨-, u, hu, -, -, hm⟩ := step_cases s t hstep
  · exact .inl rfl
  · have htx := hm.tx_cases
    rw [hu.tx_eq, hu.status_eq, hu.packet_eq] at htx
    obtain hkept | ⟨ha, hsync | ⟨hv, hsent⟩⟩ := htx
    · exact .inl hkept
    · exact .inr ⟨ha, .inl hsync⟩
    · exact .inr ⟨ha, .inr ⟨hinv.packet.shape_of_valid hv, hsent⟩⟩

end Sys2Proof.Machine

/-! PROOFS. The encoding family (30_encoding.md): the fields of a request word, the decoder against the encoder and
against the rows of the opcode table, the illegal words, the pairs of a HEX line and the record a written line holds, and
the rows that store or send one byte. -/
namespace Sys2Proof.Machine

/-! ### The fields of a request word -/

/-- A word with one operand of `n` bits at bit `k` is the sum of OP and the operand at its place (30_encoding.md R80). -/
theorem toNat_operandWord {n : Nat} (op : BitVec 4) (x : BitVec n) (k : Nat) (hk : 4 ≤ k) (hfit : n + k ≤ 32) :
    (requestWord op ||| (x.setWidth 32 <<< k)).toNat = x.toNat * 2 ^ k + op.toNat := by
  have hshift : (x.setWidth 32 <<< k).toNat = x.toNat <<< k := by
    have hlt : x.toNat * 2 ^ k < 2 ^ 32 := by
      calc x.toNat * 2 ^ k < 2 ^ n * 2 ^ k := Nat.mul_lt_mul_of_pos_right x.isLt (Nat.two_pow_pos k)
        _ = 2 ^ (n + k) := (Nat.pow_add 2 n k).symm
        _ ≤ 2 ^ 32 := Nat.pow_le_pow_right (by decide) hfit
    rw [BitVec.toNat_shiftLeft, BitVec.toNat_setWidth_of_le (by omega), Nat.shiftLeft_eq, Nat.mod_eq_of_lt hlt]
  have hop : (requestWord op).toNat = op.toNat := BitVec.toNat_setWidth_of_le (by decide)
  have hlow : op.toNat < 2 ^ k := Nat.lt_of_lt_of_le op.isLt (Nat.pow_le_pow_right (by decide) hk)
  rw [BitVec.toNat_or, hshift, hop, Nat.or_comm, ← Nat.shiftLeft_add_eq_or_of_lt hlow, Nat.shiftLeft_eq]

/-- The fields of a word are the digits of its number (30_encoding.md R80). -/
theorem fields_eq_iff_toNat (w : Word) (op low : BitVec 4) (imm : Byte) (n : BitVec 9) (high : BitVec 7) :
    (fieldOp w = op ∧ fieldLowReserved w = low ∧ fieldImm8 w = imm ∧ fieldN9 w = n ∧ fieldHighReserved w = high) ↔
      w.toNat = op.toNat + 2 ^ 4 * low.toNat + 2 ^ 8 * imm.toNat + 2 ^ 16 * n.toNat + 2 ^ 25 * high.toNat := by
  simp only [fieldOp, fieldLowReserved, fieldImm8, fieldN9, fieldHighReserved, BitVec.toNat_eq,
    BitVec.extractLsb'_toNat, Nat.shiftRight_eq_div_pow]
  omega

/-- A request word is its five fields (30_encoding.md R80). -/
theorem word_eq_iff_fields (v w : Word) :
    v = w ↔ fieldOp v = fieldOp w ∧ fieldLowReserved v = fieldLowReserved w ∧ fieldImm8 v = fieldImm8 w ∧
      fieldN9 v = fieldN9 w ∧ fieldHighReserved v = fieldHighReserved w := by
  rw [fields_eq_iff_toNat, ← (fields_eq_iff_toNat w _ _ _ _ _).mp ⟨rfl, rfl, rfl, rfl, rfl⟩, BitVec.toNat_eq]

theorem requestWord_eq_iff (op : BitVec 4) (w : Word) :
    requestWord op = w ↔
      fieldOp w = op ∧ fieldLowReserved w = 0 ∧ fieldImm8 w = 0 ∧ fieldN9 w = 0 ∧ fieldHighReserved w = 0 := by
  have hw : (requestWord op).toNat = op.toNat := BitVec.toNat_setWidth_of_le (by decide)
  rw [fields_eq_iff_toNat, eq_comm, BitVec.toNat_eq, hw]
  rfl

theorem ckAddWord_eq_iff (b : Byte) (w : Word) :
    ckAddWord b = w ↔
      fieldOp w = 0x2 ∧ fieldLowReserved w = 0 ∧ fieldImm8 w = b ∧ fieldN9 w = 0 ∧ fieldHighReserved w = 0 := by
  have hw : (ckAddWord b).toNat = b.toNat * 2 ^ 8 + 0x2 := toNat_operandWord 0x2 b 8 (by decide) (by decide)
  rw [fields_eq_iff_toNat, eq_comm, BitVec.toNat_eq, hw]
  simp only [BitVec.ofNat_eq_ofNat, BitVec.toNat_ofNat]
  omega

theorem cksumWord_eq_iff (n : BitVec 9) (w : Word) :
    cksumWord n = w ↔
      fieldOp w = 0x3 ∧ fieldLowReserved w = 0 ∧ fieldImm8 w = 0 ∧ fieldN9 w = n ∧ fieldHighReserved w = 0 := by
  have hw : (cksumWord n).toNat = n.toNat * 2 ^ 16 + 0x3 := toNat_operandWord 0x3 n 16 (by decide) (by decide)
  rw [fields_eq_iff_toNat, eq_comm, BitVec.toNat_eq, hw]
  simp only [BitVec.ofNat_eq_ofNat, BitVec.toNat_ofNat]
  omega

/-! ### The decoder of request words and the encoder -/

theorem decodePlain_eq_ok_iff (w : Word) (i j : Instr) :
    decodePlain w i = .ok j ↔ fieldImm8 w = 0 ∧ fieldN9 w = 0 ∧ j = i := by
  unfold decodePlain
  split
  · simp_all
  · split <;> simp_all [eq_comm]

theorem decodeCkAdd_eq_ok_iff (w : Word) (j : Instr) :
    decodeCkAdd w = .ok j ↔ fieldN9 w = 0 ∧ j = .ckAdd (fieldImm8 w) := by
  unfold decodeCkAdd
  split <;> simp_all [eq_comm]

theorem decodeCksum_eq_ok_iff (w : Word) (j : Instr) :
    decodeCksum w = .ok j ↔ fieldImm8 w = 0 ∧ (fieldN9 w).toNat ≤ ckbufLen ∧ j = .cksum (fieldN9 w) := by
  unfold decodeCksum
  split
  · simp_all
  · split <;> simp_all [eq_comm]

/-- The ten operations but CK_ADD and CKSUM have one word each. -/
theorem encode_of_decodePlain (op : BitVec 4) {w : Word} {i j : Instr} (hop : (fieldOp w).toNat = op.toNat)
    (hlow : fieldLowReserved w = 0) (hhigh : fieldHighReserved w = 0)
    (henc : encode i = ⟨.request, requestWord op⟩) (hwf : i.wellFormed = true) (h : decodePlain w i = .ok j) :
    encode j = ⟨.request, w⟩ ∧ j.wellFormed = true := by
  obtain ⟨himm, hn, rfl⟩ := (decodePlain_eq_ok_iff w i j).mp h
  rw [henc, (requestWord_eq_iff op w).mpr ⟨BitVec.eq_of_toNat_eq hop, hlow, himm, hn, hhigh⟩]
  exact ⟨rfl, hwf⟩

theorem encode_of_decodeRequest {w : Word} {i : Instr} (h : decodeRequest w = .ok i) :
    encode i = ⟨.request, w⟩ ∧ i.wellFormed = true := by
  unfold decodeRequest at h
  split at h
  · cases h
  · next hres =>
    obtain ⟨hlow, hhigh⟩ := not_or.mp hres
    rw [ne_eq, not_not] at hlow hhigh
    split at h
    · next hop => exact encode_of_decodePlain 0x1 hop hlow hhigh rfl rfl h
    · next hop =>
      obtain ⟨hn, rfl⟩ := (decodeCkAdd_eq_ok_iff w i).mp h
      have hw := (ckAddWord_eq_iff (fieldImm8 w) w).mpr ⟨BitVec.eq_of_toNat_eq hop, hlow, rfl, hn, hhigh⟩
      exact ⟨congrArg (Encoded.mk .request) hw, rfl⟩
    · next hop =>
      obtain ⟨himm, hn, rfl⟩ := (decodeCksum_eq_ok_iff w i).mp h
      have hw := (cksumWord_eq_iff (fieldN9 w) w).mpr ⟨BitVec.eq_of_toNat_eq hop, hlow, himm, rfl, hhigh⟩
      exact ⟨congrArg (Encoded.mk .request) hw, decide_eq_true hn⟩
    · next hop => exact encode_of_decodePlain 0x4 hop hlow hhigh rfl rfl h
    · next hop => exact encode_of_decodePlain 0x5 hop hlow hhigh rfl rfl h
    · next hop => exact encode_of_decodePlain 0x6 hop hlow hhigh rfl rfl h
    · next hop => exact encode_of_decodePlain 0x7 hop hlow hhigh rfl rfl h
    · next hop => exact encode_of_decodePlain 0x8 hop hlow hhigh rfl rfl h
    · next hop => exact encode_of_decodePlain 0x9 hop hlow hhigh rfl rfl h
    · next hop => exact encode_of_decodePlain 0xA hop hlow hhigh rfl rfl h
    · cases h

theorem decodeRequest_encode {i : Instr} (hplace : (encode i).place = .request) (hwf : i.wellFormed = true) :
    decodeRequest (encode i).bits = .ok i := by
  cases i with
  | ckAdd b =>
    obtain ⟨hop, hlow, himm, hn, hhigh⟩ := (ckAddWord_eq_iff b _).mp rfl
    simp [encode, decodeRequest, hop, hlow, hhigh, decodeCkAdd_eq_ok_iff, himm, hn]
  | cksum n =>
    obtain ⟨hop, hlow, himm, hn, hhigh⟩ := (cksumWord_eq_iff n _).mp rfl
    simpa [encode, decodeRequest, hop, hlow, hhigh, decodeCksum_eq_ok_iff, himm, hn] using of_decide_eq_true hwf
  | ckClr | hexdec | buildE | buildW | buildV | buildR | send | sync => decide
  | _ => cases hplace

/-- A request word decodes to exactly the well-formed instruction it encodes (30_encoding.md R81). -/
theorem decodeRequest_eq_ok_iff (w : Word) (i : Instr) :
    decodeRequest w = .ok i ↔ encode i = ⟨.request, w⟩ ∧ i.wellFormed = true := by
  refine ⟨encode_of_decodeRequest, fun ⟨henc, hwf⟩ => ?_⟩
  have h := decodeRequest_encode (by rw [henc]) hwf
  rwa [henc] at h

/-! ### The decoder of wire bytes and the encoder -/

theorem decode_wireBits {place : Place} (hplace : place ≠ .request) (b : Byte) :
    decode ⟨place, wireBits b⟩ = decodeWire place b := by
  have hlt : (wireBits b).toNat < 256 := by simp [wireBits]; omega
  have hbyte : (wireBits b).extractLsb' 0 8 = b := BitVec.eq_of_toNat_eq (by simp [wireBits, b.isLt])
  simp only [decode, if_neg hplace, if_neg (Nat.not_le.mpr hlt), hbyte]

theorem wireBits_extract {w : Word} (h : w.toNat < 256) : wireBits (w.extractLsb' 0 8) = w := by
  apply BitVec.eq_of_toNat_eq
  simp [wireBits]
  omega

theorem decode_encode_wire {i : Instr} (hplace : (encode i).place ≠ .request) (hwf : i.wellFormed = true) :
    decode (encode i) = .ok i := by
  cases i with
  | respUndefined b =>
    obtain ⟨hack, hnack⟩ : b ≠ ackByte ∧ b ≠ nackByte := by simpa [Instr.wellFormed] using hwf
    simp [encode, decode_wireBits, decodeWire, decodeResponse, hack, hnack]
  | hexTypeOther t =>
    have ht : t ≠ typeData := of_decide_eq_true hwf
    simp [encode, decode_wireBits, decodeWire, decodeHexType, ht]
  | pktCmdErase | pktCmdWrite | pktCmdVerify | pktCmdRun | pktPreamble0 | pktPreamble1 | syncByte | respAck | respNack
  | hexTypeData => rfl
  | _ => exact absurd rfl hplace

theorem decodeOnly_eq_ok_iff (b expected : Byte) (i j : Instr) :
    decodeOnly b expected i = .ok j ↔ b = expected ∧ j = i := by
  unfold decodeOnly
  split <;> simp_all [eq_comm]

theorem encode_of_decodeWire {place : Place} {b : Byte} {i : Instr} (h : decodeWire place b = .ok i) :
    encode i = ⟨place, wireBits b⟩ ∧ i.wellFormed = true := by
  cases place with
  | request => cases h
  | packetByte0 | packetByte1 | txHandshake =>
    obtain ⟨rfl, rfl⟩ := (decodeOnly_eq_ok_iff _ _ _ _).mp h
    exact ⟨rfl, rfl⟩
  | packetByte3 =>
    simp only [decodeWire, decodeCommandByte] at h
    split_ifs at h <;> cases h <;> subst b <;> exact ⟨rfl, rfl⟩
  | rxResponse0 =>
    simp only [decodeWire, decodeResponse] at h
    split_ifs at h with hack hnack
    · cases h; exact ⟨by rw [hack]; rfl, rfl⟩
    · cases h; exact ⟨by rw [hnack]; rfl, rfl⟩
    · cases h; exact ⟨rfl, by simp [Instr.wellFormed, hack, hnack]⟩
  | hexType =>
    simp only [decodeWire, decodeHexType] at h
    split_ifs at h with ht
    · cases h; exact ⟨by rw [ht]; rfl, rfl⟩
    · cases h; exact ⟨rfl, decide_eq_true ht⟩

/-- Settles O2: a request word by the fields of its encoding, a wire byte by its place. -/
theorem decodeOfEncode : Obligations.DecodeOfEncode := by
  intro i hwf
  by_cases hplace : (encode i).place = .request
  · rw [decode, if_pos hplace]
    exact decodeRequest_encode hplace hwf
  · exact decode_encode_wire hplace hwf

/-- Settles O3: each branch of the decoder fixes the fields of the word, or the byte at its place. -/
theorem encodeOfDecode : Obligations.EncodeOfDecode := by
  intro ⟨place, w⟩ i h
  by_cases hplace : place = .request
  · subst hplace
    exact encode_of_decodeRequest h
  · simp only [decode, if_neg hplace] at h
    split at h
    · cases h
    · next hlt =>
      have hdec := encode_of_decodeWire h
      rwa [wireBits_extract (Nat.not_le.mp hlt)] at hdec

/-- Settles O1: the decoder evaluated on each word and byte. -/
theorem writtenWordsDecode : Obligations.WrittenWordsDecode := by
  unfold Obligations.WrittenWordsDecode
  decide

/-! ### The rows of the operations -/

theorem and_of_full {n : Nat} {mask : BitVec n} (hmask : mask = BitVec.allOnes n) (x : BitVec n) : x &&& mask = x := by
  rw [hmask, BitVec.and_allOnes]

/-- The row of CK_ADD fixes every field of the word but IMM8 (30_encoding.md R81). -/
theorem ckAddWord_eq_iff_row (b : Byte) (w : Word) :
    ckAddWord b = w ↔ w &&& 0xFFFF00FF = 0x00000002 ∧ b = fieldImm8 w := by
  rw [word_eq_iff_fields (w &&& _), ckAddWord_eq_iff]
  simp (disch := decide) [fieldOp, fieldLowReserved, fieldImm8, fieldN9, fieldHighReserved, BitVec.extractLsb'_and,
    and_of_full]
  tauto

/-- The row of CKSUM fixes every field of the word but N9 (30_encoding.md R81). -/
theorem cksumWord_eq_iff_row (n : BitVec 9) (w : Word) :
    cksumWord n = w ↔ w &&& 0xFE00FFFF = 0x00000003 ∧ n = fieldN9 w := by
  rw [word_eq_iff_fields (w &&& _), cksumWord_eq_iff]
  simp (disch := decide) [fieldOp, fieldLowReserved, fieldImm8, fieldN9, fieldHighReserved, BitVec.extractLsb'_and,
    and_of_full]
  tauto

/-- The row of `i` is an operation's and takes `w`, with the operands of `i` the fields of `w` (30_encoding.md R81). -/
def rowTakes (i : Instr) (w : Word) : Prop :=
  i.row.place = .request ∧ w &&& i.row.mask = i.row.pattern ∧ (∀ b, i = .ckAdd b → b = fieldImm8 w) ∧
    ∀ n, i = .cksum n → n = fieldN9 w ∧ n.toNat ≤ ckbufLen

theorem encode_eq_iff_rowTakes (w : Word) (i : Instr) :
    encode i = ⟨.request, w⟩ ∧ i.wellFormed = true ↔ rowTakes i w := by
  cases i with
  | ckAdd b => simp [encode, Instr.row, Instr.wellFormed, rowTakes, ckAddWord_eq_iff_row]
  | cksum n => simp [encode, Instr.row, Instr.wellFormed, rowTakes, cksumWord_eq_iff_row, and_assoc]
  | ckClr | hexdec | buildE | buildW | buildV | buildR | send | sync =>
    simp (disch := decide) [encode, Instr.row, Instr.wellFormed, rowTakes, and_of_full, requestWord, eq_comm]
  | _ => simp [encode, Instr.row, byteRow, rowTakes]

theorem decodeRequest_eq_ok_iff_rowTakes (w : Word) (i : Instr) : decodeRequest w = .ok i ↔ rowTakes i w :=
  (decodeRequest_eq_ok_iff w i).trans (encode_eq_iff_rowTakes w i)

/-- Settles O4: the rows take what the decoder reads, and the decoder reads one instruction. -/
theorem wordDecodesByItsOneRow : Obligations.WordDecodesByItsOneRow := by
  refine ⟨decodeRequest_eq_ok_iff_rowTakes, fun w i j hi hj => ?_⟩
  have hdec : decodeRequest w = .ok i := (decodeRequest_eq_ok_iff_rowTakes w i).mpr hi
  exact Except.ok.inj (hdec.symm.trans ((decodeRequest_eq_ok_iff_rowTakes w j).mpr hj))

/-! ### The illegal words -/

theorem decodeRequest_error_iff_no_row (w : Word) :
    (∃ e, decodeRequest w = .error e) ↔ ∀ i, ¬rowTakes i w := by
  simp only [← decodeRequest_eq_ok_iff_rowTakes]
  cases decodeRequest w <;> simp

/-- A word in mask and match of an operation's row decodes, unless it is a CKSUM with N9 above 256. -/
theorem rowTakes_of_row_matches {i : Instr} {w : Word} (hplace : i.row.place = .request)
    (hrow : w &&& i.row.mask = i.row.pattern) :
    (∃ j, rowTakes j w) ∨ ∃ n, i = .cksum n ∧ ckbufLen < (fieldN9 w).toNat := by
  cases i with
  | ckAdd b => exact .inl ⟨.ckAdd (fieldImm8 w), hplace, hrow, fun _ h => (Instr.ckAdd.inj h).symm, nofun⟩
  | cksum n =>
    obtain hn | hn := Nat.lt_or_ge ckbufLen (fieldN9 w).toNat
    · exact .inr ⟨n, rfl, hn⟩
    · refine .inl ⟨.cksum (fieldN9 w), hplace, hrow, nofun, fun m h => ?_⟩
      obtain rfl := Instr.cksum.inj h
      exact ⟨rfl, hn⟩
  | _ => exact .inl ⟨_, hplace, hrow, nofun, nofun⟩

theorem decodePlain_error_iff (w : Word) (i : Instr) :
    (∃ e, decodePlain w i = .error e) ↔ fieldImm8 w ≠ 0 ∨ fieldN9 w ≠ 0 := by
  unfold decodePlain
  split_ifs <;> simp_all

theorem decodeCkAdd_error_iff (w : Word) : (∃ e, decodeCkAdd w = .error e) ↔ fieldN9 w ≠ 0 := by
  unfold decodeCkAdd
  split_ifs <;> simp_all

theorem decodeCksum_error_iff (w : Word) :
    (∃ e, decodeCksum w = .error e) ↔ fieldImm8 w ≠ 0 ∨ ckbufLen < (fieldN9 w).toNat := by
  unfold decodeCksum
  split_ifs <;> simp_all

/-- The list of 30_encoding.md R82, on the fields of the word. -/
def illegalListed (w : Word) : Prop :=
  (fieldOp w = 0x0 ∨ 0xB ≤ (fieldOp w).toNat) ∨ (fieldLowReserved w ≠ 0 ∨ fieldHighReserved w ≠ 0) ∨
    (fieldImm8 w ≠ 0 ∧ fieldOp w ≠ 0x2) ∨ (fieldN9 w ≠ 0 ∧ fieldOp w ≠ 0x3) ∨
    (ckbufLen < (fieldN9 w).toNat ∧ fieldOp w = 0x3)

/-- The decoder rejects exactly the words of the list: reserved bits first, then OP by OP. -/
theorem decodeRequest_error_iff_listed (w : Word) : (∃ e, decodeRequest w = .error e) ↔ illegalListed w := by
  unfold decodeRequest illegalListed
  split_ifs with hres
  · simpa using .inr (.inl (by simpa using hres))
  · have heq (k : BitVec 4) : fieldOp w = k ↔ (fieldOp w).toNat = k.toNat := BitVec.toNat_inj.symm
    simp only [hres, false_or]
    have hlt : (fieldOp w).toNat < 16 := (fieldOp w).isLt
    interval_cases (fieldOp w).toNat <;>
      simp [heq, decodePlain_error_iff, decodeCkAdd_error_iff, decodeCksum_error_iff]

/-- The fatal-result entry of an accepting block, as a whole state (60_exceptions.md R242). -/
theorem State.ready.fatal_eq {s : State} (h : s.ready) (c : ResultCode) :
    s.fatal c = { s with status := { s.status with result := c, fault := c, aborted := true } } := by
  simp [State.fatal, h.2, ← h.1]

theorem State.ready.accept_eq {s : State} (h : s.ready) (run : State → StepResult) : s.accept run = run s :=
  s.accept_ready run h.1 h.2

/-- Settles O5: no row takes an illegal word, the decoder's branches are the list of R82, and the port answers by request
acceptance. -/
theorem illegalWordsAreExactlyListed : Obligations.IllegalWordsAreExactlyListed := by
  refine fun w => ⟨?_, decodeRequest_error_iff_listed w, fun s e h hp => ⟨fun ha => ?_, s.request_aborted w hp⟩⟩
  · rw [decodeRequest_error_iff_no_row]
    refine ⟨fun hno i hplace hrow => ?_, fun hbig i hi => ?_⟩
    · exact (rowTakes_of_row_matches hplace hrow).resolve_left fun ⟨j, hj⟩ => hno j hj
    · obtain ⟨hplace, hrow, -, hn⟩ := hi
      obtain ⟨n, rfl, hlt⟩ := hbig i hplace hrow
      obtain ⟨rfl, hle⟩ := hn n rfl
      exact absurd hlt (Nat.not_lt.mpr hle)
  · have hr : s.ready := ⟨hp, ha⟩
    rw [State.request, h, ← hr.fatal_eq]
    exact hr.accept_eq _

/-! ### The pairs of a HEX line -/

/-- The parser's hex digits are those of 30_encoding.md R87. -/
theorem hexVal_eq_some_iff (lc : Bool) (c v : Byte) : hexVal lc c = some v ↔ isHexDigit lc c v := by
  unfold hexVal
  split_ifs with hdigit hupper hlower <;>
    simp only [char0, char9, charUpperA, charUpperF, charLowerA, charLowerF] at *
  · rw [Option.some.injEq]
    bv_omega
  · rw [Option.some.injEq]
    bv_omega
  · obtain ⟨rfl, hlo, hhi⟩ := hlower
    rw [Option.some.injEq]
    simp only [isHexDigit, true_and]
    bv_omega
  · cases lc <;> simp only [isHexDigit, Bool.false_eq_true, false_and, or_false, true_and, false_iff] at * <;> bv_omega

theorem State.hasPair.pairAt_eq {s : State} {j : Nat} {b : Byte} (h : s.hasPair j b) :
    pairAt s.config.hexLc s.fieldChars j = .ok b := by
  obtain ⟨c, d, hi, lo, hc, hd, hhi, hlo, hb⟩ := h
  have hval : 16 * hi + lo = b := by
    apply BitVec.eq_of_toNat_eq
    have hlt := b.isLt
    simp [BitVec.toNat_add, BitVec.toNat_mul]
    omega
  simp only [pairAt, digitAt, hc, hd, (hexVal_eq_some_iff _ _ _).mpr hhi, (hexVal_eq_some_iff _ _ _).mpr hlo, ← hval]
  rfl

/-- Pairs that stand one after another on the line are read in their order (41_hex_decoder.md R145). -/
theorem pairsAt_of_hasPair {s : State} {data : List Byte} (j : Nat)
    (h : ∀ i b, data[i]? = some b → s.hasPair (j + 2 * i) b) :
    pairsAt s.config.hexLc s.fieldChars j data.length = .ok data := by
  induction data generalizing j with
  | nil => rfl
  | cons b bs ih =>
    have hb : s.hasPair j b := h 0 b rfl
    have hbs := ih (j + 2) fun i c hc => by
      have hpair := h (i + 1) c hc
      rwa [show j + 2 * (i + 1) = j + 2 + 2 * i by omega] at hpair
    simp only [pairsAt, List.length_cons, hb.pairAt_eq, hbs]
    rfl

theorem u16OfBytes_extract (addr : BitVec 16) :
    u16OfBytes (addr.extractLsb' 8 8) (addr.extractLsb' 0 8) = addr := by
  apply BitVec.eq_of_toNat_eq
  have hlt := addr.isLt
  simp [u16OfBytes, Nat.shiftRight_eq_div_pow]
  omega

theorem checkMarker_of_head? {cs : List Byte} (h : cs.head? = some 0x3A) : checkMarker cs = .ok () := by
  cases cs with
  | nil => cases h
  | cons c cs => cases h; rfl

theorem State.hasHeader.readHeader_eq {s : State} {count : Byte} {addr : BitVec 16} {ty : Byte}
    (h : s.hasHeader count addr ty) : readHeader s.config.hexLc s.fieldChars = .ok ⟨count, addr⟩ := by
  obtain ⟨hmark, hcount, hhi, hlo, -⟩ := h
  simp only [readHeader, checkMarker_of_head? hmark, hcount.pairAt_eq, hhi.pairAt_eq, hlo.pairAt_eq, bind, Except.bind,
    u16OfBytes_extract]
  rfl

theorem State.hasHeader.readType_eq {s : State} {count : Byte} {addr : BitVec 16} {ty : Byte}
    (h : s.hasHeader count addr ty) : readType s.config.hexLc s.fieldChars = .ok ty := by
  obtain ⟨-, -, -, -, htype⟩ := h
  exact htype.pairAt_eq

theorem State.hasHeader.onLine_eq {s : State} {count : Byte} {addr : BitVec 16} {ty : Byte}
    (h : s.hasHeader count addr ty) (hl : s.lineLen ≤ Config.maxLine) (run : State → LineHeader → State) :
    s.onLine run = .next (run s ⟨count, addr⟩) := by
  rw [s.onLine_next run hl, h.readHeader_eq]

/-! ### Data lines and other lines -/

/-- What the end of a Data line leaves where its pairs can be read (41_hex_decoder.md R145, R146, R148). -/
theorem State.dataRecord_eq_afterData {s : State} {data : List Byte} {cks : Byte} (addr : BitVec 16)
    (hlen : data.length ≤ 255) (hdata : ∀ i b, data[i]? = some b → s.hasPair (9 + 2 * i) b)
    (hcks : s.hasPair (9 + 2 * data.length) cks) :
    s.dataRecord ⟨BitVec.ofNat 8 data.length, addr⟩ = s.afterData addr data cks := by
  have hcount : (BitVec.ofNat 8 data.length).toNat = data.length := by
    rw [BitVec.toNat_ofNat, Nat.mod_eq_of_lt (by omega)]
  have hread : readData s.config.hexLc s.fieldChars data.length = .ok (data, cks) := by
    simp only [readData, pairsAt_of_hasPair 9 hdata, hcks.pairAt_eq]
    rfl
  simp only [State.dataRecord, hcount, hread]
  rfl

/-- Settles O15: both rows run on the header read, the one to the data and checksum pairs, the other to the skip. -/
theorem recordTypeRowsFinishTheLine : Obligations.RecordTypeRowsFinishTheLine := by
  refine ⟨fun s addr data cks ty hr hl hlen hhd hdata hcks => ?_, fun s count addr t ty hr hl hhd => ?_⟩
  · rw [exec, execHexTypeData, hr.accept_eq, hhd.onLine_eq hl, State.dataRecord_eq_afterData addr hlen hdata hcks]
  · rw [exec, execHexTypeOther, hr.accept_eq, hhd.onLine_eq hl]
    rfl

/-- HEXDEC of a Data line whose pairs can be read (41_hex_decoder.md R148). -/
theorem exec_hexdec_of_dataLine {s : State} {addr : BitVec 16} {data : List Byte} {cks : Byte} (hr : s.ready)
    (hl : s.lineLen ≤ Config.maxLine) (hlen : data.length ≤ 255)
    (hhd : s.hasHeader (BitVec.ofNat 8 data.length) addr 0x00)
    (hdata : ∀ i b, data[i]? = some b → s.hasPair (9 + 2 * i) b) (hcks : s.hasPair (9 + 2 * data.length) cks) :
    exec .hexdec s = .next (s.afterData addr data cks) := by
  have htyped (h : LineHeader) : s.decodeTyped h = s.dataRecord h := by
    simp only [State.decodeTyped, hhd.readType_eq]
    rfl
  rw [exec, execHexdec, hr.accept_eq, hhd.onLine_eq hl, htyped, State.dataRecord_eq_afterData addr hlen hdata hcks]

/-! ### The text of a record -/

theorem isHexDigit_hexChar (lc : Bool) (v : BitVec 4) : isHexDigit lc (hexChar v) (v.setWidth 8) := by
  revert lc v
  decide

theorem isLineEnd_hexChar (v : BitVec 4) : isLineEnd (hexChar v) = false := by
  revert v
  decide

theorem isLineEnd_of_mem_hexPair {b c : Byte} (h : c ∈ hexPair b) : isLineEnd c = false := by
  obtain rfl | rfl : c = _ ∨ c = _ := by simpa [hexPair] using h
  · exact isLineEnd_hexChar _
  · exact isLineEnd_hexChar _

/-- The text of a record holds no line end, so that all of it stands before LEND (30_encoding.md R90). -/
theorem isLineEnd_of_mem_lineText {addr : BitVec 16} {ty cks : Byte} {data : List Byte} {c : Byte}
    (h : c ∈ lineText addr ty data cks) : isLineEnd c = false := by
  simp only [lineText, lineStart, List.mem_append, List.mem_cons, List.mem_flatMap] at h
  obtain ((rfl | ((h | h) | h) | h) | ⟨b, -, h⟩) | h := h
  · rfl
  all_goals exact isLineEnd_of_mem_hexPair h

theorem State.fieldChars_of_lineText {s : State} {addr : BitVec 16} {ty cks : Byte} {data tail : List Byte}
    (h : s.lineChars = lineText addr ty data cks ++ tail) :
    s.fieldChars = lineText addr ty data cks ++ untilLineEnd tail := by
  rw [State.fieldChars, h]
  exact List.takeWhile_append_of_pos fun c hc => by simp [isLineEnd_of_mem_lineText hc]

/-- A hex pair written on the line stands there with its value (30_encoding.md R87, R88). -/
theorem State.hasPair_of_written {s : State} {b : Byte} {j : Nat} (pre post : List Byte)
    (h : s.fieldChars = pre ++ (hexPair b ++ post)) (hj : pre.length = j) : s.hasPair j b := by
  refine ⟨_, _, _, _, ?_, ?_, isHexDigit_hexChar _ (b.extractLsb' 4 4), isHexDigit_hexChar _ (b.extractLsb' 0 4), ?_⟩
  · simp [h, ← hj, hexPair]
  · simp [h, ← hj, hexPair]
  · simp [Nat.shiftRight_eq_div_pow]
    omega

@[simp] theorem hexPair_length (b : Byte) : (hexPair b).length = 2 := rfl

@[simp] theorem lineStart_length (count : Byte) (addr : BitVec 16) (ty : Byte) :
    (lineStart count addr ty).length = 9 := rfl

/-- The pair of data byte `i` stands behind `i` pairs. -/
theorem flatMap_hexPair_split {data : List Byte} {i : Nat} {b : Byte} (h : data[i]? = some b) :
    ∃ pre post, data.flatMap hexPair = pre ++ (hexPair b ++ post) ∧ pre.length = 2 * i := by
  induction data generalizing i with
  | nil => simp at h
  | cons c cs ih =>
    cases i with
    | zero =>
      obtain rfl : c = b := by simpa using h
      exact ⟨[], cs.flatMap hexPair, rfl, rfl⟩
    | succ i =>
      obtain ⟨pre, post, heq, hlen⟩ := ih (List.getElem?_cons_succ ▸ h)
      refine ⟨hexPair c ++ pre, post, by simp [heq], ?_⟩
      rw [List.length_append, hexPair_length, hlen]
      omega

/-- A line that begins with the text of a header holds that header (30_encoding.md R86). -/
theorem State.hasHeader_of_lineStart {s : State} {count : Byte} {addr : BitVec 16} {ty : Byte} {rest : List Byte}
    (h : s.fieldChars = lineStart count addr ty ++ rest) : s.hasHeader count addr ty := by
  simp only [lineStart, List.append_assoc, List.cons_append] at h
  refine ⟨by rw [h]; rfl, ?_, ?_, ?_, ?_⟩
  · exact State.hasPair_of_written [_] _ h rfl
  · exact State.hasPair_of_written [_, _, _] _ h rfl
  · exact State.hasPair_of_written [_, _, _, _, _] _ h rfl
  · exact State.hasPair_of_written [_, _, _, _, _, _, _] _ h rfl

/-- Settles O13: the text of the record stands before LEND and holds each pair at its characters. -/
theorem hexdecDecodesEveryWrittenRecord : Obligations.HexdecDecodesEveryWrittenRecord := by
  intro s addr data cks tail hr hl hlen htext
  have hf := State.fieldChars_of_lineText htext
  simp only [lineText, List.append_assoc] at hf
  refine exec_hexdec_of_dataLine hr hl hlen (State.hasHeader_of_lineStart hf) (fun i b hb => ?_) ?_
  · obtain ⟨pre, post, hsplit, hpre⟩ := flatMap_hexPair_split hb
    refine State.hasPair_of_written (lineStart (BitVec.ofNat 8 data.length) addr 0x00 ++ pre)
      (post ++ (hexPair cks ++ untilLineEnd tail)) ?_ ?_
    · simp only [hf, hsplit, List.append_assoc]
    · rw [List.length_append, lineStart_length, hpre]
  · refine State.hasPair_of_written (lineStart (BitVec.ofNat 8 data.length) addr 0x00 ++ data.flatMap hexPair)
      (untilLineEnd tail) ?_ ?_
    · simp only [hf, List.append_assoc]
    · simp [Nat.mul_comm]

/-! ### The rows that store or send one byte, and the packet they belong to -/

/-- Settles O28: each packet row is the store of its byte at its place, and the laws of the byte spaces say what a store
changes. -/
theorem packetRowsStoreTheirByte : Obligations.PacketRowsStoreTheirByte := by
  intro s i a b hrow hwf hr
  have hexec : exec i s = s.storePacketByte a b := by
    simp only [List.mem_cons, Prod.mk.injEq, List.not_mem_nil, or_false] at hrow
    obtain ⟨rfl, rfl, rfl⟩ | ⟨rfl, rfl, rfl⟩ | ⟨rfl, rfl, rfl⟩ | ⟨rfl, rfl, rfl⟩ | ⟨rfl, rfl, rfl⟩ | ⟨rfl, rfl, rfl⟩ :=
      hrow <;> rfl
  obtain ⟨-, -, -, hpkt, -⟩ := (Memory.wf_iff s.mem).mp hwf
  refine ⟨s.writePkt a [b], ?_, ?_, fun c hc => ?_, rfl⟩
  · rw [hexec, State.storePacketByte, hr.accept_eq]
  · exact readCell_writeCell_same _ s.mem.pkt a b hpkt
  · exact readCell_writeCell_other s.mem.pkt a b c hc

/-- Settles O36: both are SYNC's transmit step, SYNC's from the flushed state, which accepts requests too. -/
theorem syncByteRowSends : Obligations.SyncByteRowSends := by
  refine ⟨fun s hr hev => ?_, fun s hr => ?_⟩
  · rw [exec, execSyncByte, hr.accept_eq, State.sendSyncByte, if_neg hev]
    rfl
  · have hflushed : (s.setLinkSynced false).rxFlush.ready := hr
    rw [exec, execSync, hr.accept_eq]
    exact (hflushed.accept_eq State.sendSyncByte).symm

/-- Settles O51: the step lemma of the packet invariant. -/
theorem stepKeepsPacketInvariant : Obligations.StepKeepsPacketInvariant :=
  fun _ _ hinv hstep => step_keeps_packetInv hinv.memory hinv.packet hstep

end Sys2Proof.Machine

/-! PROOFS. The checksum family (40_checksum.md): the byte sums on the numbers, the three operations of the generator in a
block that accepts requests, their words, and the output of a sequence of additions. -/
namespace Sys2Proof.Machine

/-! ### Sums of byte sequences -/

/-- The running sum, each addition modulo 256, is the sum of the numbers modulo 256 (40_checksum.md R120). -/
theorem sum8_eq_numericSum (s : List Byte) : sum8 s = numericSum s := by
  induction s with
  | nil => rfl
  | cons b bs ih =>
    rw [sum8_cons, ih]
    apply BitVec.eq_of_toNat_eq
    simp [numericSum]

/-- The checksum from the sum of the numbers (40_checksum.md R121). -/
theorem checksum_eq_numericChecksum (s : List Byte) : checksum s = numericChecksum s := by
  rw [checksum, sum8_eq_numericSum]
  apply BitVec.eq_of_toNat_eq
  simp [neg8, numericSum, numericChecksum]

/-- Bytes of one sequence in two orders have the same sum. -/
theorem numericSum_perm {s t : List Byte} (h : s.Perm t) : numericSum t = numericSum s := by
  rw [numericSum, numericSum, (h.map BitVec.toNat).sum_eq]

/-- Settles O6: the sum and the checksum on the numbers, negation as complement plus one, and the order of a sum. -/
theorem checksumIsNegatedTruncatedSum : Obligations.ChecksumIsNegatedTruncatedSum := by
  refine fun s => ⟨sum8_eq_numericSum s, checksum_eq_numericChecksum s, ?_, fun t ht => ?_⟩
  · rw [checksum, neg8_eq_neg, sum8_eq_numericSum, BitVec.neg_eq_not_add]
    rfl
  · simp only [checksum, sum8_eq_numericSum, numericSum_perm ht]

/-- Settles O7: the checksum is the negation of the sum it is added to. -/
theorem appendedChecksumClosesSum : Obligations.AppendedChecksumClosesSum := by
  intro s
  rw [← sum8_eq_numericSum]
  exact sum8_append_neg8 s

/-! ### The operations of the generator -/

theorem State.ready.exec_ckClr {s : State} (h : s.ready) : exec .ckClr s = .next ((s.setCkacc 0x00).finish .ok) := by
  rw [exec, execCkClr, h.accept_eq]

theorem State.ready.exec_ckAdd {s : State} (h : s.ready) (b : Byte) :
    exec (.ckAdd b) s = .next ((s.setCkacc (s.ckacc + b)).finish .ok) := by
  rw [exec, execCkAdd, h.accept_eq]

theorem State.ready.exec_cksum {s : State} (h : s.ready) {n : BitVec 9} (hn : n.toNat ≤ ckbufLen) :
    exec (.cksum n) s = .next ((s.setCkacc (sum8 (readBytes s.mem.ckb 0 n.toNat))).finish .ok) := by
  rw [exec, execCksum, h.accept_eq, if_neg (Nat.not_lt.mpr hn), sum8]

/-- Settles O8: the word evaluated, and what CK_CLR answers. -/
theorem ckClrClearsAccumulator : Obligations.CkClrClearsAccumulator :=
  ⟨by decide, fun _ hr => hr.exec_ckClr⟩

/-- Settles O9: the row takes the word, and the sum of two bytes is their sum on the numbers. -/
theorem ckAddAddsByte : Obligations.CkAddAddsByte := by
  rintro b w hrow rfl
  refine ⟨?_, fun s hr => ?_⟩
  · exact (decodeRequest_eq_ok_iff_rowTakes w _).mpr ⟨rfl, hrow, fun _ h => (Instr.ckAdd.inj h).symm, nofun⟩
  · have hsum (x y : Byte) : x + y = BitVec.ofNat 8 ((x.toNat + y.toNat) % 256) :=
      BitVec.eq_of_toNat_eq (by simp)
    rw [hr.exec_ckAdd, hsum]
    rfl

/-- CKSUM's word is the instruction up to the length of CKBUF (30_encoding.md R84). -/
theorem decodeRequest_cksumWord_of_le {n : BitVec 9} (hn : n.toNat ≤ ckbufLen) :
    decodeRequest (cksumWord n) = .ok (.cksum n) :=
  (decodeRequest_eq_ok_iff _ _).mpr ⟨rfl, decide_eq_true hn⟩

/-- CKSUM's word is illegal above the length of CKBUF (30_encoding.md R82). -/
theorem decodeRequest_cksumWord_of_gt {n : BitVec 9} (hn : ckbufLen < n.toNat) :
    ∃ e, decodeRequest (cksumWord n) = .error e := by
  obtain ⟨hop, -, -, hfield, -⟩ := (cksumWord_eq_iff n _).mp rfl
  exact (decodeRequest_error_iff_listed _).mpr (.inr (.inr (.inr (.inr ⟨by rwa [hfield], hop⟩))))

/-- Settles O10: the words by their N9, and CKSUM's running sum over the bytes of CKBUF. -/
theorem cksumSumsBuffer : Obligations.CksumSumsBuffer := by
  intro n
  rw [show (n.setWidth 32 <<< 16) ||| 0x3 = cksumWord n from BitVec.or_comm ..]
  refine ⟨decodeRequest_cksumWord_of_gt, fun hn => ⟨decodeRequest_cksumWord_of_le hn, fun s hr => ?_⟩⟩
  rw [hr.exec_cksum hn, firstBytes_eq_readBytes, sum8_eq_numericSum]
  rfl

/-! ### A sequence of additions -/

/-- CK_ADD of each byte of a sequence runs the accumulator from `v` over the sequence (40_checksum.md R123). -/
theorem State.ready.runInstrs_ckAdd {s : State} (h : s.ready) (v : Byte) (bs : List Byte) :
    runInstrs (bs.map .ckAdd) ((s.setCkacc v).finish .ok) = .next ((s.setCkacc (sumFrom v bs)).finish .ok) := by
  induction bs generalizing v with
  | nil => rfl
  | cons b bs ih =>
    have hready : ((s.setCkacc v).finish .ok).ready := h
    rw [List.map_cons, runInstrs, hready.exec_ckAdd]
    exact ih (v + b)

/-- Settles O11: from the cleared accumulator the additions run to the sequence's sum, which CK_OUT negates. -/
theorem ckAddSequenceGivesChecksum : Obligations.CkAddSequenceGivesChecksum := by
  intro bs s hr
  refine ⟨(s.setCkacc (sum8 bs)).finish .ok, ?_, checksum_eq_numericChecksum bs, rfl⟩
  rw [runInstrs, hr.exec_ckClr]
  exact hr.runInstrs_ckAdd 0x00 bs

end Sys2Proof.Machine

/-! PROOFS. The record parser family (41_hex_decoder.md): the digits a reader of the line takes in line order, the first of
them that fails, and what HEXDEC leaves for each line. -/
namespace Sys2Proof.Machine

/-! ### Digits and the first failing character -/

/-- The digit at a character is the value of R87 of the character that stands there. -/
theorem digitAt_eq_ok_iff {lc : Bool} {cs : List Byte} {q : Nat} {v : Byte} :
    digitAt lc cs q = .ok v ↔ ∃ c, cs[q]? = some c ∧ isHexDigit lc c v := by
  simp only [← hexVal_eq_some_iff]
  unfold digitAt
  split
  · next hnone => simp [hnone]
  · next c hsome => split <;> simp [*]

/-- A character has no digit where the line has ended or where it is no hex digit (41_hex_decoder.md R143). -/
theorem digitAt_eq_error_iff {lc : Bool} {cs : List Byte} {q : Nat} {e : FormatErr} :
    digitAt lc cs q = .error e ↔ (cs.length ≤ q ∧ e = ⟨.truncated, q⟩) ∨
      ∃ c, cs[q]? = some c ∧ (∀ v, ¬isHexDigit lc c v) ∧ e = ⟨.badDigit, q⟩ := by
  simp only [← hexVal_eq_some_iff, ← List.getElem?_eq_none_iff, ← Option.eq_none_iff_forall_ne_some]
  unfold digitAt
  split
  · next hnone => simp [hnone, eq_comm]
  · next c hsome => split <;> simp [*, eq_comm]

/-- Every character from `j` on and before `k` is a hex digit. -/
def DigitsIn (lc : Bool) (cs : List Byte) (j k : Nat) : Prop := ∀ q, j ≤ q → q < k → ∃ v, digitAt lc cs q = .ok v

/-- `e` is the first failing character from `j` on, with its cause (41_hex_decoder.md R143). -/
def FailsFirst (lc : Bool) (cs : List Byte) (j : Nat) (e : FormatErr) : Prop :=
  j ≤ e.pos ∧ DigitsIn lc cs j e.pos ∧ digitAt lc cs e.pos = .error e

/-- `r` is an answer of reading the characters from `j` on and before `k` in line order: a value where all of them are hex
digits, otherwise the first that fails. -/
def ReadsDigits {α : Type} (lc : Bool) (cs : List Byte) (j k : Nat) : Except FormatErr α → Prop
  | .ok _ => DigitsIn lc cs j k
  | .error e => e.pos < k ∧ FailsFirst lc cs j e

/-- The digits before `p` of the statements are those the parser reads. -/
theorem State.digitsBefore_iff (s : State) (p : Nat) :
    s.digitsBefore p ↔ DigitsIn s.config.hexLc s.fieldChars 1 p := by
  have hdigit (q : Nat) : (∃ c v, s.fieldChars[q]? = some c ∧ isHexDigit s.config.hexLc c v) ↔
      ∃ v, digitAt s.config.hexLc s.fieldChars q = .ok v := by
    rw [exists_comm]
    exact exists_congr fun v => digitAt_eq_ok_iff.symm
  exact forall_congr' fun q => imp_congr_right fun _ => imp_congr_right fun _ => hdigit q

section
variable {lc : Bool} {cs : List Byte} {j k l : Nat} {e : FormatErr} {α β : Type}

theorem digitsIn_self : DigitsIn lc cs j j := fun _ hj hlt => absurd hj (Nat.not_le.mpr hlt)

theorem DigitsIn.append (hjk : DigitsIn lc cs j k) (hkl : DigitsIn lc cs k l) : DigitsIn lc cs j l := fun q hj hl =>
  (Nat.lt_or_ge q k).elim (hjk q hj) fun hk => hkl q hk hl

theorem FailsFirst.prepend (hd : DigitsIn lc cs j k) (hjk : j ≤ k) (h : FailsFirst lc cs k e) : FailsFirst lc cs j e :=
  let ⟨hk, hdigits, he⟩ := h
  ⟨hjk.trans hk, hd.append hdigits, he⟩

/-- A line has at most one first failing character. -/
theorem FailsFirst.unique {e' : FormatErr} (h : FailsFirst lc cs j e) (h' : FailsFirst lc cs j e') : e = e' := by
  obtain ⟨hj, hd, he⟩ := h
  obtain ⟨hj', hd', he'⟩ := h'
  obtain hlt | heq | hgt := Nat.lt_trichotomy e.pos e'.pos
  · obtain ⟨v, hv⟩ := hd' e.pos hj hlt
    simp [hv] at he
  · rw [heq, he'] at he
    exact (Except.error.inj he).symm
  · obtain ⟨v, hv⟩ := hd e'.pos hj' hgt
    simp [hv] at he'

/-- No character fails before the end of the digits. -/
theorem FailsFirst.le_pos (h : FailsFirst lc cs j e) (hd : DigitsIn lc cs j k) : k ≤ e.pos := by
  obtain ⟨hj, -, he⟩ := h
  by_contra hlt
  obtain ⟨v, hv⟩ := hd e.pos hj (Nat.not_le.mp hlt)
  simp [hv] at he

/-! ### The parser reads in line order (41_hex_decoder.md R143) -/

/-- Reading on where a first part has been read. -/
theorem ReadsDigits.bind {r : Except FormatErr α} {f : α → Except FormatErr β} (hr : ReadsDigits lc cs j k r)
    (hf : ∀ a, ReadsDigits lc cs k l (f a)) (hjk : j ≤ k) (hkl : k ≤ l) : ReadsDigits lc cs j l (r >>= f) := by
  cases r with
  | error e => exact ⟨hr.1.trans_le hkl, hr.2⟩
  | ok a =>
    have hrest := hf a
    change ReadsDigits lc cs j l (f a)
    cases hfa : f a <;> rw [hfa] at hrest
    · exact ⟨hrest.1, hrest.2.prepend hr hjk⟩
    · exact hr.append hrest

theorem readsDigits_digitAt (lc : Bool) (cs : List Byte) (j : Nat) : ReadsDigits lc cs j (j + 1) (digitAt lc cs j) := by
  cases h : digitAt lc cs j with
  | ok v =>
    intro q hj hlt
    obtain rfl : q = j := by omega
    exact ⟨v, h⟩
  | error e =>
    have hpos : e.pos = j := by
      obtain ⟨-, rfl⟩ | ⟨-, -, -, rfl⟩ := digitAt_eq_error_iff.mp h <;> rfl
    exact ⟨by omega, hpos.ge, hpos ▸ digitsIn_self, hpos ▸ h⟩

theorem readsDigits_pairAt (lc : Bool) (cs : List Byte) (j : Nat) : ReadsDigits lc cs j (j + 2) (pairAt lc cs j) :=
  (readsDigits_digitAt lc cs j).bind (fun _ => (readsDigits_digitAt lc cs (j + 1)).bind (fun _ => digitsIn_self)
    (by omega) le_rfl) (by omega) (by omega)

theorem readsDigits_pairsAt (lc : Bool) (cs : List Byte) (j n : Nat) :
    ReadsDigits lc cs j (j + 2 * n) (pairsAt lc cs j n) := by
  induction n generalizing j with
  | zero => exact digitsIn_self
  | succ n ih =>
    have hrest := ih (j + 2)
    rw [show j + 2 + 2 * n = j + 2 * (n + 1) by omega] at hrest
    exact (readsDigits_pairAt lc cs j).bind (fun _ => hrest.bind (fun _ => digitsIn_self) (by omega) le_rfl)
      (by omega) (by omega)

theorem readsDigits_readHeader (lc : Bool) (hmark : cs.head? = some 0x3A) :
    ReadsDigits lc cs 1 7 (readHeader lc cs) := by
  have hpairs : ReadsDigits lc cs 1 7 (do
      let cnt ← pairAt lc cs 1
      let ahi ← pairAt lc cs 3
      let alo ← pairAt lc cs 5
      return (⟨cnt, u16OfBytes ahi alo⟩ : LineHeader)) :=
    (readsDigits_pairAt lc cs 1).bind (fun _ => (readsDigits_pairAt lc cs 3).bind (fun _ =>
      (readsDigits_pairAt lc cs 5).bind (fun _ => digitsIn_self) (by omega) le_rfl) (by omega) (by omega))
      (by omega) (by omega)
  rw [readHeader, checkMarker_of_head? hmark]
  exact hpairs

theorem readsDigits_readData (lc : Bool) (cs : List Byte) (n : Nat) :
    ReadsDigits lc cs 9 (11 + 2 * n) (readData lc cs n) := by
  have hcks := readsDigits_pairAt lc cs (9 + 2 * n)
  rw [show 9 + 2 * n + 2 = 11 + 2 * n by omega] at hcks
  exact (readsDigits_pairsAt lc cs 9 n).bind (fun _ => hcks.bind (fun _ => digitsIn_self) (by omega) le_rfl)
    (by omega) (by omega)

end

/-! ### What HEXDEC leaves for a marked line -/

/-- `u` is what HEXDEC leaves of `s` for the characters from `j` on: FORMAT_ERROR at the first failing one, or another
result where all of them before `k` are hex digits. No field character stands behind 520 (30_encoding.md R86). -/
def State.EndsScan (s : State) (j k : Nat) (u : State) : Prop :=
  (∃ e, e.pos ≤ 520 ∧ FailsFirst s.config.hexLc s.fieldChars j e ∧ u = s.formatError e) ∨
    (u.status.result ≠ .formatError ∧ DigitsIn s.config.hexLc s.fieldChars j k)

theorem State.EndsScan.prepend {s u : State} {j k l : Nat} (h : s.EndsScan k l u)
    (hd : DigitsIn s.config.hexLc s.fieldChars j k) (hjk : j ≤ k) : s.EndsScan j l u := by
  obtain ⟨e, hpos, hfails, rfl⟩ | ⟨hres, hdigits⟩ := h
  · exact .inl ⟨e, hpos, hfails.prepend hd hjk, rfl⟩
  · exact .inr ⟨hres, hd.append hdigits⟩

/-- A read that fails ends the scan in FORMAT_ERROR (41_hex_decoder.md R143). -/
theorem State.endsScan_formatError {s : State} {α : Type} {r : Except FormatErr α} {j k l : Nat} {e : FormatErr}
    (hr : ReadsDigits s.config.hexLc s.fieldChars j k r) (he : r = .error e) (hk : k ≤ 521) :
    s.EndsScan j l (s.formatError e) := by
  subst he
  obtain ⟨hlt, hfails⟩ := hr
  exact .inl ⟨e, by omega, hfails, rfl⟩

/-- Where the characters HEXDEC reads end: behind the checksum pair of a Data line, behind the record type pair of another
line (41_hex_decoder.md R144, R146). -/
def State.scanEnd (s : State) (h : LineHeader) : Nat :=
  if readType s.config.hexLc s.fieldChars = .ok typeData then 11 + 2 * h.count.toNat else 9

theorem State.dataRecord_endsScan (s : State) (h : LineHeader) :
    s.EndsScan 9 (11 + 2 * h.count.toNat) (s.dataRecord h) := by
  have hcount := h.count.isLt
  have hreads := readsDigits_readData s.config.hexLc s.fieldChars h.count.toNat
  unfold State.dataRecord
  split
  · next e he => exact State.endsScan_formatError hreads he (by omega)
  · next d cks hok =>
    rw [hok] at hreads
    exact .inr ⟨nofun, hreads⟩

/-- The record type read decides what the rest of the line is (41_hex_decoder.md R144). -/
theorem State.decodeTyped_of_readType {s : State} {t : Byte}
    (ht : readType s.config.hexLc s.fieldChars = .ok t) (h : LineHeader) :
    s.decodeTyped h = if t = typeData then s.dataRecord h else s.skipRecord h t := by
  simp only [State.decodeTyped, ht]

theorem State.decodeTyped_endsScan (s : State) (h : LineHeader) : s.EndsScan 7 (s.scanEnd h) (s.decodeTyped h) := by
  have hreads : ReadsDigits s.config.hexLc s.fieldChars 7 9 (readType s.config.hexLc s.fieldChars) :=
    readsDigits_pairAt _ _ 7
  cases hty : readType s.config.hexLc s.fieldChars with
  | error e =>
    simp only [State.decodeTyped, hty]
    exact State.endsScan_formatError hreads hty (by omega)
  | ok t =>
    rw [hty] at hreads
    rw [State.decodeTyped_of_readType hty, State.scanEnd, hty]
    by_cases ht : t = typeData
    · rw [if_pos ht, if_pos (congrArg _ ht)]
      exact (s.dataRecord_endsScan h).prepend hreads (by omega)
    · rw [if_neg ht, if_neg fun heq => ht (Except.ok.inj heq)]
      exact .inr ⟨nofun, hreads⟩

/-- The field characters of the line: those of the pairs up to the record type, and on a Data line those of its data and
checksum pairs (30_encoding.md R86). -/
def State.isFieldPos (s : State) (p : Nat) : Prop :=
  p ≤ 8 ∨ ∃ count addr, s.hasHeader count addr 0x00 ∧ p ≤ 10 + 2 * count.toNat

/-- HEXDEC reads as far as the field characters go. -/
theorem State.isFieldPos.lt_scanEnd {s : State} {p : Nat} {h : LineHeader} (hp : s.isFieldPos p)
    (hhd : readHeader s.config.hexLc s.fieldChars = .ok h) : p < s.scanEnd h := by
  obtain hp | ⟨count, addr, hline, hp⟩ := hp
  · unfold State.scanEnd
    split <;> omega
  · obtain rfl : ⟨count, addr⟩ = h := Except.ok.inj (hline.readHeader_eq.symm.trans hhd)
    have htype : readType s.config.hexLc s.fieldChars = .ok typeData := hline.readType_eq
    rw [State.scanEnd, if_pos htype]
    change p < 11 + 2 * count.toNat
    omega

theorem State.EndsScan.mono {s u : State} {j k l : Nat} (h : s.EndsScan j l u) (hkl : k ≤ l) : s.EndsScan j k u :=
  h.imp_right fun ⟨hres, hd⟩ => ⟨hres, fun q hj hk => hd q hj (hk.trans_le hkl)⟩

/-- HEXDEC of a marked line scans every field character (41_hex_decoder.md R142 to R146). -/
theorem State.ready.exec_hexdec_endsScan {s : State} {p : Nat} (hr : s.ready) (hl : s.lineLen ≤ Config.maxLine)
    (hmark : s.fieldChars.head? = some 0x3A) (hp : s.isFieldPos p) :
    ∃ u, exec .hexdec s = .next u ∧ s.EndsScan 1 (p + 1) u := by
  have hreads := readsDigits_readHeader s.config.hexLc hmark
  rw [exec, execHexdec, hr.accept_eq, s.onLine_next _ hl]
  refine ⟨_, rfl, ?_⟩
  split
  · next e he => exact State.endsScan_formatError hreads he (by omega)
  · next h hok =>
    rw [hok] at hreads
    exact ((s.decodeTyped_endsScan h).prepend hreads (by omega)).mono (hp.lt_scanEnd hok)

/-- The first failing field character of a marked line is what HEXDEC reports (41_hex_decoder.md R143). -/
theorem State.ready.exec_hexdec_of_failsFirst {s : State} {e : FormatErr} (hr : s.ready)
    (hl : s.lineLen ≤ Config.maxLine) (hmark : s.fieldChars.head? = some 0x3A) (hp : s.isFieldPos e.pos)
    (he : FailsFirst s.config.hexLc s.fieldChars 1 e) : exec .hexdec s = .next (s.formatError e) := by
  obtain ⟨u, hexec, ⟨e', -, he', rfl⟩ | ⟨-, hdigits⟩⟩ := hr.exec_hexdec_endsScan hl hmark hp
  · rw [hexec, he.unique he']
  · exact absurd (he.le_pos hdigits) (Nat.not_succ_le_self _)

/-- FORMAT_ERROR in a block that accepts requests, as a whole state (41_hex_decoder.md R150). -/
theorem State.ready.formatError_eq {s : State} (hr : s.ready) (cause : FmtCause) (pos : Nat) :
    s.formatError ⟨cause, pos⟩ = s.afterFormatError cause pos := by
  have hready : ((s.setRecValid false).setFormat cause pos).ready := hr
  exact hready.fatal_eq .formatError

/-- A line operation that answers had a line inside LINEBUF (20_memory.md R61). -/
theorem State.lineLen_le_of_onLine {s t : State} {run : State → LineHeader → State} (h : s.onLine run = .next t) :
    s.lineLen ≤ Config.maxLine := by
  by_contra hgt
  simp [State.onLine, (lineFits_eq_false_iff _).mpr (Nat.not_le.mp hgt)] at h

/-- A line whose end comes no later than a position behind its marker and its digits ends there. -/
theorem State.digitsBefore.length_eq {s : State} {p : Nat} (h : s.digitsBefore p)
    (hmark : s.fieldChars.head? = some 0x3A) (hp : 1 ≤ p) (hle : s.fieldChars.length ≤ p) :
    p = s.fieldChars.length := by
  refine le_antisymm ?_ hle
  obtain rfl | hlt := hp.eq_or_lt
  · exact List.length_pos_iff.mpr fun hnil => by simp [hnil] at hmark
  · obtain ⟨c, -, hc, -⟩ := h (p - 1) (by omega) (by omega)
    obtain ⟨hlen, -⟩ := List.getElem?_eq_some_iff.mp hc
    omega

/-- Settles O17: HEXDEC's answer is a scan of the field characters, and FORMAT_ERROR is its first failing one. -/
theorem formatErrorIsFirstFailingCharacter : Obligations.FormatErrorIsFirstFailingCharacter := by
  intro s t hr hmark hexec hres
  have hl : s.lineLen ≤ Config.maxLine :=
    State.lineLen_le_of_onLine (run := State.decodeTyped) (by rwa [exec, execHexdec, hr.accept_eq] at hexec)
  obtain ⟨u, hu, hscan⟩ := hr.exec_hexdec_endsScan hl hmark (p := 8) (.inl le_rfl)
  obtain rfl : t = u := Host.Outcome.next.inj (hexec.symm.trans hu)
  obtain ⟨e, hmax, ⟨hpos, hdigits, he⟩, rfl⟩ | ⟨hne, -⟩ := hscan
  · have hbefore := (s.digitsBefore_iff e.pos).mpr hdigits
    refine ⟨e.pos, hpos, hmax, hbefore, ?_⟩
    obtain ⟨hle, heq⟩ | ⟨c, hc, hbad, heq⟩ := digitAt_eq_error_iff.mp he
    · exact .inl ⟨hbefore.length_eq hmark hpos hle, by rw [← hr.formatError_eq, ← heq]⟩
    · exact .inr ⟨c, hc, hbad, by rw [← hr.formatError_eq, ← heq]⟩
  · exact absurd hres hne

/-- Settles O18: the digits are those of the parser, and a failing character behind digits is the first to fail. -/
theorem hexdecReportsFirstFailingCharacter : Obligations.HexdecReportsFirstFailingCharacter := by
  refine ⟨hexVal_eq_some_iff, fun s p hr hl hmark h1 hp hdigits => ?_⟩
  have hreport (cause : FmtCause) (he : digitAt s.config.hexLc s.fieldChars p = .error ⟨cause, p⟩) :
      exec .hexdec s = .next (s.afterFormatError cause p) := by
    rw [← hr.formatError_eq]
    exact hr.exec_hexdec_of_failsFirst hl hmark hp ⟨h1, (s.digitsBefore_iff p).mp hdigits, he⟩
  exact ⟨fun hend => hreport _ (digitAt_eq_error_iff.mpr (.inl ⟨hend.ge, rfl⟩)),
    fun c hc hbad => hreport _ (digitAt_eq_error_iff.mpr (.inr ⟨c, hc, hbad, rfl⟩))⟩

/-! ### The marker, the record type and the lines that are read -/

/-- A line without the marker has no header (41_hex_decoder.md R141). -/
theorem checkMarker_of_head?_ne {cs : List Byte} (h : cs.head? ≠ some 0x3A) :
    checkMarker cs = .error ⟨.missingMarker, 0⟩ := by
  cases cs with
  | nil => rfl
  | cons c cs => exact if_neg fun hc => h (congrArg some hc)

/-- Settles O16: the marker is checked before any pair is read. -/
theorem hexdecRequiresMarker : Obligations.HexdecRequiresMarker := by
  intro s hr hl hmark
  have hheader : readHeader s.config.hexLc s.fieldChars = .error ⟨.missingMarker, 0⟩ := by
    rw [readHeader, checkMarker_of_head?_ne hmark]
    rfl
  rw [exec, execHexdec, hr.accept_eq, s.onLine_next _ hl, hheader, ← hr.formatError_eq]

/-- Two line operations that do the same from the header on answer the same. -/
theorem State.accept_onLine_congr {s : State} {run run' : State → LineHeader → State} (h : ∀ hd, run s hd = run' s hd) :
    (s.accept fun s => s.onLine run) = s.accept fun s => s.onLine run' := by
  simp only [State.accept, State.onLine, h]

/-- Settles O19: HEXDEC and the row differ only in what they run behind the header, which the type read decides. -/
theorem hexdecRunsItsRecordTypeRow : Obligations.HexdecRunsItsRecordTypeRow := by
  intro s t htype
  unfold decodeHexType
  split
  · next ht => exact State.accept_onLine_congr fun hd => (State.decodeTyped_of_readType htype hd).trans (if_pos ht)
  · next ht => exact State.accept_onLine_congr fun hd => (State.decodeTyped_of_readType htype hd).trans (if_neg ht)

/-- Settles O14: HEXDEC runs the row of the type read, which skips the line. -/
theorem hexdecSkipsOtherTypes : Obligations.HexdecSkipsOtherTypes := by
  intro s count addr t hr hl ht hhd
  obtain ⟨-, hskip⟩ := recordTypeRowsFinishTheLine
  have hrow : decodeHexType t = .hexTypeOther t := if_neg ht
  rw [hexdecRunsItsRecordTypeRow s t hhd.readType_eq, hrow, hskip s count addr t t hr hl hhd]

/-- Settles O12: the pairs read are the fields, and the laws of the byte spaces say what the data bytes' store changes. -/
theorem hexdecDecodesDataLines : Obligations.HexdecDecodesDataLines := by
  intro s addr data cks hr hl hlen hhd hdata hcks
  refine ⟨exec_hexdec_of_dataLine hr hl hlen hhd hdata hcks, fun hwf => ?_, fun a ha => ?_⟩
  · obtain ⟨-, -, hrecd, -⟩ := (Memory.wf_iff s.mem).mp hwf
    rw [firstBytes_eq_readBytes]
    exact readBytes_writeBytes recMax s.mem.recd 0 data (by rwa [Nat.zero_add]) hrecd
  · exact readCell_writeBytes_outside s.mem.recd 0 data a (.inr (by rwa [Nat.zero_add]))

end Sys2Proof.Machine

/-! PROOFS. The packet framer family (42_packet_framer.md): the four BUILD operations as one operation of the command,
the packet it leaves in PKTBUF and what that depends on, the rows on a packet built, and the faults. -/
namespace Sys2Proof.Machine

/-! ### The rotation of a Verify span -/

theorem rotr3_rotl3 (b : Byte) : rotr3 (rotl3 b) = b := by
  revert b
  decide

theorem rotl3_eq_rotateLeft (b : Byte) : rotl3 b = b.rotateLeft 3 := rfl

/-! ### The BUILD operation of a command -/

/-- The BUILD operation of a command (42_packet_framer.md R182 to R185). -/
def Command.build : Command → Instr
  | .erase => .buildE
  | .write => .buildW
  | .verify => .buildV
  | .run => .buildR

/-- The packet row of a command (30_encoding.md R93). -/
def Command.packetRow : Command → Instr
  | .erase => .pktCmdErase
  | .write => .pktCmdWrite
  | .verify => .pktCmdVerify
  | .run => .pktCmdRun

/-- The length field of a command's packet (42_packet_framer.md R173). -/
def State.lengthField (s : State) : Command → Byte
  | .erase => eraseLength
  | .run => runLength
  | .write | .verify => s.record.count + lengthOffset

/-- The target address of a command's packet (42_packet_framer.md R174). -/
def State.packetAddr (s : State) : Command → BitVec 16
  | .erase | .run => 0x0000
  | .write | .verify => s.record.addr

/-- The body of a command's packet (42_packet_framer.md R175). -/
def State.packetBody (s : State) : Command → List Byte
  | .erase => [massErase]
  | .run => []
  | .write | .verify => s.recordData

/-- The bytes of a command's packet. -/
def State.builtBytes (s : State) (cmd : Command) : List Byte :=
  packetBytes cmd (s.lengthField cmd) (s.packetAddr cmd) (s.packetBody cmd)

/-- The state with a command's packet built. -/
def State.built (s : State) (cmd : Command) : State :=
  s.frame cmd (s.lengthField cmd) (s.packetAddr cmd) (s.packetBody cmd)

/-- Write and Verify need a valid record that fits; Erase and Run need nothing (42_packet_framer.md R180 to R185). -/
def State.canBuild (s : State) : Command → Prop
  | .erase | .run => True
  | .write | .verify => s.status.recValid = true ∧ s.record.count.toNat ≤ buildMaxCount

/-- The four BUILD operations are those of the commands. -/
theorem exists_eq_build_of_mem {i : Instr} (h : i ∈ [Instr.buildE, .buildW, .buildV, .buildR]) :
    ∃ cmd : Command, i = cmd.build := by
  simp only [List.mem_cons, List.not_mem_nil, or_false] at h
  obtain h | h | h | h := h
  · exact ⟨.erase, h⟩
  · exact ⟨.write, h⟩
  · exact ⟨.verify, h⟩
  · exact ⟨.run, h⟩

/-- BUILD_W is frameRecord in a block that accepts requests (42_packet_framer.md R183). -/
theorem State.ready.exec_buildW {s : State} (hr : s.ready) : exec .buildW s = .next (s.frameRecord .write) := by
  rw [exec, execBuildW, hr.accept_eq]

/-- BUILD_V is frameRecord in a block that accepts requests (42_packet_framer.md R184). -/
theorem State.ready.exec_buildV {s : State} (hr : s.ready) : exec .buildV s = .next (s.frameRecord .verify) := by
  rw [exec, execBuildV, hr.accept_eq]

/-- Without a valid record nothing is built, whatever REC_COUNT is (42_packet_framer.md R180). -/
theorem State.frameRecord_of_no_record {s : State} (cmd : Command) (hv : s.status.recValid = false) :
    s.frameRecord cmd = s.buildFault .noRecord :=
  if_pos hv

/-- A valid record of more than 250 bytes is not built (42_packet_framer.md R181). -/
theorem State.frameRecord_of_overflow {s : State} (cmd : Command) (hv : s.status.recValid = true)
    (hcount : buildMaxCount < s.record.count.toNat) : s.frameRecord cmd = s.buildFault .lengthOverflow := by
  rw [State.frameRecord, if_neg (by simp [hv]), if_pos hcount]

/-- A valid record of at most 250 bytes is framed (42_packet_framer.md R183, R184). -/
theorem State.frameRecord_of_fits {s : State} (cmd : Command) (hv : s.status.recValid = true)
    (hcount : s.record.count.toNat ≤ buildMaxCount) :
    s.frameRecord cmd = s.frame cmd (s.record.count + lengthOffset) s.record.addr s.recordData := by
  rw [State.frameRecord, if_neg (by simp [hv]), if_neg (Nat.not_lt.mpr hcount)]

/-- What completes with OK had a valid record that fits (42_packet_framer.md R180, R181). -/
theorem State.fits_of_frameRecord_ok {s : State} {cmd : Command} (hok : (s.frameRecord cmd).status.result = .ok) :
    s.status.recValid = true ∧ s.record.count.toNat ≤ buildMaxCount := by
  obtain ⟨-, hf⟩ | ⟨-, -, hf⟩ | ⟨hv, hcount, -⟩ := s.frameRecord_cases cmd
  · rw [hf] at hok
    cases hok
  · rw [hf] at hok
    cases hok
  · exact ⟨hv, hcount⟩

/-- A BUILD operation that can build builds its command's packet. -/
theorem State.ready.exec_build {s : State} (hr : s.ready) {cmd : Command} (hc : s.canBuild cmd) :
    exec cmd.build s = .next (s.built cmd) := by
  cases cmd with
  | erase =>
    rw [Command.build, exec, execBuildE, hr.accept_eq]
    rfl
  | run =>
    rw [Command.build, exec, execBuildR, hr.accept_eq]
    rfl
  | write =>
    obtain ⟨hv, hcount⟩ := hc
    rw [Command.build, hr.exec_buildW, State.frameRecord_of_fits .write hv hcount]
    rfl
  | verify =>
    obtain ⟨hv, hcount⟩ := hc
    rw [Command.build, hr.exec_buildV, State.frameRecord_of_fits .verify hv hcount]
    rfl

/-- A BUILD operation completes only where it can build. -/
theorem State.ready.canBuild_of_ok {s t : State} (hr : s.ready) {cmd : Command} (h : exec cmd.build s = .next t)
    (hok : t.status.result = .ok) : s.canBuild cmd := by
  cases cmd with
  | erase | run => trivial
  | write =>
    cases hr.exec_buildW.symm.trans h
    exact State.fits_of_frameRecord_ok hok
  | verify =>
    cases hr.exec_buildV.symm.trans h
    exact State.fits_of_frameRecord_ok hok

/-- A BUILD operation that completes has built its command's packet. -/
theorem State.ready.eq_built_of_ok {s t : State} (hr : s.ready) {cmd : Command} (h : exec cmd.build s = .next t)
    (hok : t.status.result = .ok) : s.canBuild cmd ∧ t = s.built cmd :=
  have hc := hr.canBuild_of_ok h hok
  ⟨hc, Host.Outcome.next.inj (h.symm.trans (hr.exec_build hc))⟩

/-! ### The packet built -/

/-- The length field counts the span (42_packet_framer.md R173). -/
theorem State.canBuild.lengthField_eq {s : State} {cmd : Command} (hc : s.canBuild cmd) :
    (s.lengthField cmd).toNat = (s.packetBody cmd).length + 5 := by
  cases cmd with
  | erase | run => rfl
  | write | verify =>
    obtain ⟨-, hcount⟩ := hc
    simp only [State.lengthField, State.packetBody, State.recordData_length, lengthField_toNat _ hcount]

theorem State.canBuild.builtBytes_length_le {s : State} {cmd : Command} (hc : s.canBuild cmd) :
    0 + (s.builtBytes cmd).length ≤ pktMax := by
  rw [Nat.zero_add]
  exact packetBytes_length_le_pktMax cmd _ hc.lengthField_eq

theorem State.canBuild.built_packet {s : State} {cmd : Command} (hc : s.canBuild cmd) (hwf : s.mem.wf = true) :
    (s.built cmd).packet = s.builtBytes cmd :=
  State.frame_packet hwf cmd _ hc.lengthField_eq

theorem State.canBuild.built_pktLen_toNat {s : State} {cmd : Command} (hc : s.canBuild cmd) (hwf : s.mem.wf = true) :
    (s.built cmd).pktLen.toNat = (s.builtBytes cmd).length := by
  rw [← hc.built_packet hwf, State.packet, readBytes_length]

theorem State.canBuild.built_pktLen {s : State} {cmd : Command} (hc : s.canBuild cmd) (hwf : s.mem.wf = true) :
    (s.built cmd).pktLen = BitVec.ofNat 9 (s.builtBytes cmd).length := by
  rw [← hc.built_pktLen_toNat hwf, BitVec.ofNat_toNat, BitVec.setWidth_eq]

/-- Each byte of the packet stands at its address in PKTBUF. -/
theorem State.canBuild.readCell_built {s : State} {cmd : Command} (hc : s.canBuild cmd) (hwf : s.mem.wf = true)
    {a : Nat} {b : Byte} (hb : (s.builtBytes cmd)[a]? = some b) : readCell (s.built cmd).mem.pkt a = b := by
  obtain ⟨-, -, -, hpkt, -⟩ := (Memory.wf_iff s.mem).mp hwf
  have hread := readCell_writeBytes_inside pktMax s.mem.pkt 0 (s.builtBytes cmd) hc.builtBytes_length_le hpkt a b hb
  rwa [Nat.zero_add] at hread

/-- CKACC is left the sum of the length byte and the span as stored (42_packet_framer.md R178, R187). -/
theorem State.built_ckacc (s : State) (cmd : Command) :
    (s.built cmd).ckacc = numericSum ((s.builtBytes cmd).drop 2).dropLast := by
  have hspan : ((s.builtBytes cmd).drop 2).dropLast =
      s.lengthField cmd :: packetSpan cmd (s.packetAddr cmd) (s.packetBody cmd) := by
    simp only [State.builtBytes, packetBytes, List.drop_succ_cons, List.drop_zero]
    rw [← List.cons_append, List.dropLast_concat]
  rw [hspan, ← sum8_eq_numericSum]
  rfl

/-- The last byte of the packet negates CKACC (42_packet_framer.md R177, 40_checksum.md R124). -/
theorem State.builtBytes_getLast? (s : State) (cmd : Command) :
    (s.builtBytes cmd).getLast? = some (s.built cmd).ckOut := by
  rw [State.builtBytes, packetBytes, ← List.cons_append, ← List.cons_append, ← List.cons_append,
    List.getLast?_concat]
  rfl

/-- A BUILD operation that can build leaves its command's packet in PKTBUF, its length and its sum. -/
theorem State.canBuild.builds {s : State} {cmd : Command} {p : List Byte} {acc : Byte} (hc : s.canBuild cmd)
    (hwf : s.mem.wf = true) (hr : s.ready) (hp : s.builtBytes cmd = p) (hacc : numericSum (p.drop 2).dropLast = acc) :
    s.builds cmd.build p acc := by
  subst hp hacc
  obtain ⟨-, -, -, hpkt, -⟩ := (Memory.wf_iff s.mem).mp hwf
  refine ⟨s.built cmd, hr.exec_build hc, ?_, fun a ha => ?_, ?_⟩
  · rw [firstBytes_eq_readBytes]
    exact readBytes_writeBytes pktMax s.mem.pkt 0 _ hc.builtBytes_length_le hpkt
  · exact readCell_writeBytes_outside s.mem.pkt 0 _ a (.inr (by rwa [Nat.zero_add]))
  · rw [← s.built_ckacc cmd, ← hc.built_pktLen hwf]
    rfl

/-- The Erase packet reads no register (42_packet_framer.md R182). -/
theorem State.builtBytes_erase (s : State) :
    s.builtBytes .erase = [0x07, 0x0E, 0x06, 0x45, 0x00, 0x00, 0x00, 0x00, 0x00, 0xB5] := by
  rw [State.builtBytes, State.lengthField, State.packetAddr, State.packetBody]
  decide

/-- The Run packet reads no register (42_packet_framer.md R185). -/
theorem State.builtBytes_run (s : State) :
    s.builtBytes .run = [0x07, 0x0E, 0x05, 0x52, 0x00, 0x00, 0x00, 0x00, 0xA9] := by
  rw [State.builtBytes, State.lengthField, State.packetAddr, State.packetBody]
  decide

/-- Settles O20: the word evaluated, and the Erase packet is the ten bytes. -/
theorem buildEBuildsErasePacket : Obligations.BuildEBuildsErasePacket :=
  ⟨by decide, fun s hwf hr => State.canBuild.builds (cmd := .erase) trivial hwf hr s.builtBytes_erase (by decide)⟩

/-- Settles O21: the word evaluated, and the Run packet is the nine bytes. -/
theorem buildRBuildsRunPacket : Obligations.BuildRBuildsRunPacket :=
  ⟨by decide, fun s hwf hr => State.canBuild.builds (cmd := .run) trivial hwf hr s.builtBytes_run (by decide)⟩

/-- The bytes of a record's packet are those of the specification, where its command rotates the span by `rot`. -/
theorem State.recordPacket_eq (s : State) {cmd : Command} {rot : Byte → Byte} (hrot : spanByte cmd = rot) :
    packetBytes cmd (s.record.count + lengthOffset) s.record.addr s.recordData =
      s.recordPacket (cmdByte cmd) rot := by
  have hlen : BitVec.ofNat 8 (s.record.count.toNat + 5) = s.record.count + lengthOffset := by
    rw [BitVec.ofNat_add, BitVec.ofNat_toNat, BitVec.setWidth_eq]
    rfl
  simp only [State.recordPacket, hlen, ← hrot, firstBytes_eq_readBytes, ← checksum_eq_numericChecksum]
  rfl

/-- Settles O22: the Write packet leaves the span as it is. -/
theorem buildWBuildsWritePacket : Obligations.BuildWBuildsWritePacket :=
  fun s hwf hr hv hcount =>
    State.canBuild.builds (cmd := .write) ⟨hv, hcount⟩ hwf hr (s.recordPacket_eq rfl) rfl

/-- Settles O23: the Verify packet rotates every byte of the span. -/
theorem buildVBuildsVerifyPacket : Obligations.BuildVBuildsVerifyPacket :=
  fun s hwf hr hv hcount =>
    State.canBuild.builds (cmd := .verify) ⟨hv, hcount⟩ hwf hr (s.recordPacket_eq (funext rotl3_eq_rotateLeft)) rfl

/-- Settles O26: CKACC is the sum over the bytes stored, and the last of them its negation. -/
theorem ckOutIsPacketChecksum : Obligations.CkOutIsPacketChecksum := by
  intro s t i hi hwf hr hexec hok
  obtain ⟨cmd, rfl⟩ := exists_eq_build_of_mem hi
  obtain ⟨hc, rfl⟩ := hr.eq_built_of_ok hexec hok
  rw [hc.built_packet hwf]
  exact ⟨s.built_ckacc cmd, s.builtBytes_getLast? cmd⟩

/-! ### What a packet depends on -/

/-- The bytes of a packet are a function of the command and the record (42_packet_framer.md R186). -/
theorem State.builtBytes_congr {s s' : State} (cmd : Command) (hcount : s.record.count = s'.record.count)
    (haddr : s.record.addr = s'.record.addr) (hdata : s.recordData = s'.recordData) :
    s.builtBytes cmd = s'.builtBytes cmd := by
  cases cmd with
  | erase | run => rfl
  | write | verify =>
    simp only [State.builtBytes, State.lengthField, State.packetAddr, State.packetBody, hcount, haddr, hdata]

/-- Settles O27: both packets are the bytes of one command and one record, and PKTLEN is their number. -/
theorem packetDependsOnRecordAlone : Obligations.PacketDependsOnRecordAlone := by
  intro s s' t t' i hi hwf hwf' hr hr' hcount haddr hdata hexec hexec' hok hok'
  obtain ⟨cmd, rfl⟩ := exists_eq_build_of_mem hi
  obtain ⟨hc, rfl⟩ := hr.eq_built_of_ok hexec hok
  obtain ⟨hc', rfl⟩ := hr'.eq_built_of_ok hexec' hok'
  have hrecord : s.recordData = s'.recordData := by
    rw [State.recordData, State.recordData, ← firstBytes_eq_readBytes, ← firstBytes_eq_readBytes, hdata, hcount]
  have hbytes := State.builtBytes_congr cmd hcount haddr hrecord
  exact ⟨by rw [hc.built_pktLen hwf, hc'.built_pktLen hwf', hbytes],
    by rw [hc.built_packet hwf, hc'.built_packet hwf', hbytes]⟩

/-! ### The span of a Verify packet and of a Write packet -/

/-- The byte of a packet at address 3 is its command byte as sent (30_encoding.md R92). -/
theorem State.canBuild.readCell_built_command {s : State} {cmd : Command} (hc : s.canBuild cmd)
    (hwf : s.mem.wf = true) : readCell (s.built cmd).mem.pkt 3 = spanByte cmd (cmdByte cmd) :=
  hc.readCell_built hwf rfl

/-- Behind the command byte a packet holds the address and the body as sent (30_encoding.md R92). -/
theorem State.canBuild.readCell_built_span {s : State} {cmd : Command} (hc : s.canBuild cmd) (hwf : s.mem.wf = true)
    {i : Nat} {b : Byte}
    (hb : (0x00 :: 0x00 :: hi8 (s.packetAddr cmd) :: lo8 (s.packetAddr cmd) :: s.packetBody cmd)[i]? = some b) :
    readCell (s.built cmd).mem.pkt (i + 4) = spanByte cmd b := by
  refine hc.readCell_built hwf ?_
  have hspan : (packetSpan cmd (s.packetAddr cmd) (s.packetBody cmd))[i + 1]? = some (spanByte cmd b) := by
    rw [packetSpan, List.getElem?_map, List.getElem?_cons_succ, hb, Option.map_some]
  have hi := (List.getElem?_eq_some_iff.mp hspan).1
  rw [State.builtBytes, packetBytes]
  simp only [List.getElem?_cons_succ]
  rw [List.getElem?_append_left hi, hspan]

/-- Settles O25: both packets hold the same address and body, the one rotated, which rotr3 undoes. -/
theorem verifySpanRotatesBackToWriteSpan : Obligations.VerifySpanRotatesBackToWriteSpan := by
  refine ⟨rotr3_rotl3, fun s tw tv hwf hr hv hcount hexecW hexecV => ?_⟩
  have hcW : s.canBuild .write := ⟨hv, hcount⟩
  have hcV : s.canBuild .verify := ⟨hv, hcount⟩
  obtain rfl : s.built .write = tw := Host.Outcome.next.inj ((hr.exec_build hcW).symm.trans hexecW)
  obtain rfl : s.built .verify = tv := Host.Outcome.next.inj ((hr.exec_build hcV).symm.trans hexecV)
  refine ⟨?_, ?_, hcW.readCell_built_command hwf, fun a ha hlt => ?_⟩
  · rw [hcV.built_pktLen hwf, hcW.built_pktLen hwf, State.builtBytes, State.builtBytes, packetBytes_length,
      packetBytes_length, State.packetBody, State.packetBody]
  · rw [hcV.readCell_built_command hwf]
    exact rotr3_rotl3 cmdVerify
  · obtain ⟨i, rfl⟩ := Nat.exists_eq_add_of_le' ha
    rw [hcW.built_pktLen_toNat hwf, State.builtBytes, packetBytes_length, State.packetBody] at hlt
    have hi : i < (0x00 :: 0x00 :: hi8 s.record.addr :: lo8 s.record.addr :: s.recordData).length := by
      simp only [List.length_cons]
      omega
    have hb := List.getElem?_eq_getElem hi
    rw [hcV.readCell_built_span hwf hb, hcW.readCell_built_span hwf hb]
    exact rotr3_rotl3 _

/-! ### The packet rows on a packet built -/

/-- In a canonical space a write of the byte that stands there changes nothing. -/
theorem writeCell_readCell_from {size lo : Nat} {m : Cells} (h : cellsWfFrom lo size m = true) (a : Nat) :
    writeCell m a (readCell m a) = m := by
  induction m generalizing lo with
  | nil => rfl
  | cons kv rest ih =>
    obtain ⟨k, v⟩ := kv
    simp only [cellsWfFrom, Bool.and_eq_true, decide_eq_true_eq] at h
    obtain ⟨⟨-, hv⟩, hrest⟩ := h
    simp only [writeCell, readCell]
    split
    · next hlt => rw [if_neg (Nat.ne_of_lt hlt), ih hrest]
    · next hge =>
      split
      · next heq => rw [consCell, if_neg hv, heq]
      · next hne =>
        have hbelow : readCell rest a = unlistedByte := readCell_below size (k + 1) rest hrest a (by omega)
        rw [hbelow, consCell, if_pos rfl]

/-- The store of a packet row changes nothing where its byte stands already. -/
theorem State.ready.storePacketByte_self {s : State} (hr : s.ready) (hwf : s.mem.wf = true) {a : Nat} {b : Byte}
    (hb : readCell s.mem.pkt a = b) : s.storePacketByte a b = .next s := by
  obtain ⟨-, -, -, hpkt, -⟩ := (Memory.wf_iff s.mem).mp hwf
  have hsame : writeBytes s.mem.pkt a [b] = s.mem.pkt := hb ▸ writeCell_readCell_from hpkt a
  rw [State.storePacketByte, hr.accept_eq, State.writePkt, hsame]

theorem State.canBuild.built_wf {s : State} {cmd : Command} (hc : s.canBuild cmd) (hwf : s.mem.wf = true) :
    (s.built cmd).mem.wf = true :=
  s.writePkt_wf 0 (s.builtBytes cmd) hc.builtBytes_length_le hwf

theorem exec_packetRow (cmd : Command) (s : State) :
    exec cmd.packetRow s = s.storePacketByte 3 (spanByte cmd (cmdByte cmd)) := by
  cases cmd <;> rfl

/-- Settles O29: the packet holds the preamble and its command byte where the rows store them. -/
theorem builtPacketHoldsItsRows : Obligations.BuiltPacketHoldsItsRows := by
  intro s t build row hrow hwf hr hexec hok
  obtain ⟨cmd, rfl, rfl⟩ : ∃ cmd : Command, build = cmd.build ∧ row = cmd.packetRow := by
    simp only [List.mem_cons, Prod.mk.injEq, List.not_mem_nil, or_false] at hrow
    obtain h | h | h | h := hrow
    · exact ⟨.erase, h⟩
    · exact ⟨.write, h⟩
    · exact ⟨.verify, h⟩
    · exact ⟨.run, h⟩
  obtain ⟨hc, rfl⟩ := hr.eq_built_of_ok hexec hok
  have hready : (s.built cmd).ready := hr
  have hwf' := hc.built_wf hwf
  refine ⟨hready.storePacketByte_self hwf' (hc.readCell_built hwf rfl),
    hready.storePacketByte_self hwf' (hc.readCell_built hwf rfl), ?_⟩
  rw [exec_packetRow]
  exact hready.storePacketByte_self hwf' (hc.readCell_built_command hwf)

/-! ### The faults of the record builds -/

/-- A BUILD_W or BUILD_V that writes no packet, in a block that accepts requests, as a whole state (42_packet_framer.md
R180, R181). -/
theorem State.ready.buildFault_eq {s : State} (hr : s.ready) (c : ResultCode) :
    s.buildFault c = { s with status := { s.status with
      pktValid := false, result := c, fault := c, aborted := true } } :=
  have hready : (s.setPktValid false).ready := hr
  hready.fatal_eq c

/-- Settles O24: BUILD_W and BUILD_V are frameRecord, which asks for a valid record and then for its count. -/
theorem recordBuildsFaultWithoutFittingRecord : Obligations.RecordBuildsFaultWithoutFittingRecord := by
  intro s i hi hr
  obtain ⟨cmd, hexec⟩ : ∃ cmd, exec i s = .next (s.frameRecord cmd) := by
    obtain rfl | rfl := hi
    · exact ⟨.write, hr.exec_buildW⟩
    · exact ⟨.verify, hr.exec_buildV⟩
  refine ⟨fun hv => ?_, fun hv hcount => ?_⟩
  · rw [hexec, State.frameRecord_of_no_record cmd hv, hr.buildFault_eq]
  · rw [hexec, State.frameRecord_of_overflow cmd hv hcount, hr.buildFault_eq]

end Sys2Proof.Machine

/-! PROOFS. The transmitter family (43_transmitter.md): the block's step in each wait phase, SEND and SYNC from their
issue to their end, and the waits of runs without end. -/
namespace Sys2Proof.Machine

/-! ### The block's step of a wait phase -/

/-- The fatal-result entry of a block that is not aborted, as a whole state (60_exceptions.md R242). -/
theorem State.fatal_eq_of_not_aborted {s : State} (ha : s.status.aborted = false) (c : ResultCode) :
    s.fatal c = { s with phase := .idle, status := { s.status with result := c, fault := c, aborted := true } } := by
  simp [State.fatal, ha]

/-- With the block's turn next, a step is that turn, taken off the agenda. -/
theorem step_blockTurn {s : State} {ev : LinkEvent} {draw : Nat} {rest : List Turn}
    (hag : s.agenda = .block ev draw :: rest) : step s = State.blockTurn { s with agenda := rest } ev draw := by
  simp only [step, State.nextTurn, hag, State.turn]

theorem step_sendWait {s : State} {ev : LinkEvent} {draw : Nat} {rest : List Turn}
    (hag : s.agenda = .block ev draw :: rest) (hp : s.phase = .sendWait) :
    step s = State.sendResponse { s with agenda := rest, event := ev, draw := draw } := by
  simp only [step_blockTurn hag, State.blockTurn, hp]
  rfl

theorem step_hsWait {s : State} {ev : LinkEvent} {draw : Nat} {rest : List Turn}
    (hag : s.agenda = .block ev draw :: rest) (hp : s.phase = .hsWait) :
    step s = .next (State.syncReady { s with agenda := rest, event := ev, draw := draw }) := by
  simp only [step_blockTurn hag, State.blockTurn, hp]
  rfl

theorem step_hsRead {s : State} {ev : LinkEvent} {draw : Nat} {rest : List Turn}
    (hag : s.agenda = .block ev draw :: rest) (hp : s.phase = .hsRead) :
    step s = .next (State.syncRead { s with agenda := rest, event := ev, draw := draw }) := by
  simp only [step_blockTurn hag, State.blockTurn, hp]
  rfl

/-! ### The issue of SEND -/

theorem State.sendPacket_of_ioErr {s : State} (he : s.event = .ioErr) : s.sendPacket = .next (s.fatal .linkError) :=
  if_pos he

theorem State.sendPacket_of_fits {s : State} (he : s.event ≠ .ioErr) (hfit : s.pktLen.toNat ≤ pktMax) :
    s.sendPacket = .next ((s.transmit s.packet).setPhase .sendWait) := by
  rw [State.sendPacket, if_neg he, if_neg (Nat.not_lt.mpr hfit), State.packet]

/-- SEND on a synced line with a valid packet is its transmit step with PKT_VALID cleared (43_transmitter.md R202). -/
theorem State.ready.exec_send {s : State} (hr : s.ready) (hl : s.status.linkSynced = true)
    (hv : s.status.pktValid = true) : exec .send s = (s.setPktValid false).sendPacket := by
  rw [exec, execSend, hr.accept_eq, if_neg (by simp [hl]), if_neg (by simp [hv])]

/-- Settles O30: SEND asks for the line first, then for the packet. -/
theorem sendChecksLinkThenPacket : Obligations.SendChecksLinkThenPacket := by
  refine fun s hr => ⟨fun hl => ?_, fun hl hv => ?_⟩
  · rw [exec, execSend, hr.accept_eq, if_pos hl, hr.fatal_eq]
  · rw [exec, execSend, hr.accept_eq, if_neg (by simp [hl]), if_pos hv, hr.fatal_eq]

/-- Settles O31: the transmit step without IOERR, of a packet inside PKTBUF. -/
theorem sendTransmitsPacket : Obligations.SendTransmitsPacket := by
  intro s hr hl hv hlen hev
  have hsend : (s.setPktValid false).sendPacket = _ := State.sendPacket_of_fits hev hlen
  rw [hr.exec_send hl hv, hsend, firstBytes_eq_readBytes]
  rfl

/-- Settles O32: IOERR comes before all else, at the transmit step as in SEND_WAIT. -/
theorem sendLinkErrors : Obligations.SendLinkErrors := by
  refine ⟨fun s hr hl hv hev => ?_, fun s draw rest hp ha hag => ?_⟩
  · have hcleared : (s.setPktValid false).ready := hr
    have hsend : (s.setPktValid false).sendPacket = _ := State.sendPacket_of_ioErr hev
    rw [hr.exec_send hl hv, hsend, hcleared.fatal_eq]
    rfl
  · rw [step_sendWait hag hp, State.sendResponse, if_pos rfl, State.fatal_eq_of_not_aborted (by exact ha)]

/-! ### The response to SEND -/

/-- Every k from 1 to min(255, `avail`) is the count of some draw (43_transmitter.md R206). -/
theorem drawCount_pred {k avail : Nat} (hk : 1 ≤ k) (hle : k ≤ min respMax avail) : drawCount (k - 1) avail = k := by
  rw [drawCount, Nat.mod_eq_of_lt (by omega)]
  omega

/-- A response row that raises Fatal in SEND_WAIT of a block that is not aborted, as a whole state. -/
theorem State.onResponse_fatal {s : State} (hp : s.phase = .sendWait) (ha : s.status.aborted = false) (b : Byte)
    (c : ResultCode) : s.onResponse b (fun t => t.fatal c) =
      .next { s.afterRead b (drawCount s.draw (s.rx.length + 1)) with status := { s.status with
        result := c, fault := c, aborted := true } } := by
  rw [s.onResponse_sendWait b _ hp, State.fatal_eq_of_not_aborted (by exact ha)]
  rfl

/-- Settles O33: the three rows make the same read, of the draw's count, and conclude by their class. -/
theorem responseRowsClassifyByteZero : Obligations.ResponseRowsClassifyByteZero := by
  intro s hp ha
  obtain ⟨hpos, hmax, havail⟩ := drawCount_range s.draw (s.rx.length + 1) (by omega)
  exact ⟨drawCount s.draw (s.rx.length + 1), hpos, hmax, havail, s.onResponse_sendWait ackByte (·.finish .ack) hp,
    State.onResponse_fatal hp ha nackByte .nack, fun b => State.onResponse_fatal hp ha b .undefined⟩

/-- With RX readable and no IOERR SEND's response step runs the row of byte 0 (43_transmitter.md R202). -/
theorem State.sendResponse_of_cons {s : State} {b : Byte} {bs : List Byte} (he : s.event ≠ .ioErr)
    (hrx : s.rx = b :: bs) : s.sendResponse = exec (decodeResponse b) { s with rx := bs } := by
  rw [State.sendResponse, if_neg he, hrx]

/-- In SEND_WAIT every response byte is read alike; its class shows in STATUS alone (43_transmitter.md R206, R207). -/
theorem exec_decodeResponse {s : State} (hp : s.phase = .sendWait) (b : Byte) :
    ∃ st, exec (decodeResponse b) s = .next { s.readResponse b with status := st } := by
  unfold decodeResponse
  split
  · next hb => exact ⟨((s.readResponse b).finish .ack).status, hb ▸ s.onResponse_sendWait b (·.finish .ack) hp⟩
  · split
    · next hb => exact ⟨((s.readResponse b).fatal .nack).status, hb ▸ s.onResponse_sendWait b (·.fatal .nack) hp⟩
    · exact ⟨((s.readResponse b).fatal .undefined).status, s.onResponse_sendWait b (·.fatal .undefined) hp⟩

/-- The read with byte 0 taken from the head of RX takes the first bytes of RX, as many as the draw counts. -/
theorem State.hasRead_readResponse {s : State} {b : Byte} {bs : List Byte} (hwf : s.mem.wf = true)
    (hrx : s.rx = b :: bs) :
    s.hasRead (State.readResponse { s with rx := bs } b) (drawCount s.draw s.rx.length) := by
  obtain ⟨-, -, -, -, hresp, -⟩ := (Memory.wf_iff s.mem).mp hwf
  have hlength : s.rx.length = bs.length + 1 := by rw [hrx, List.length_cons]
  obtain ⟨hpos, hmax, havail⟩ := drawCount_range s.draw s.rx.length (by omega)
  set k := drawCount s.draw s.rx.length with hk
  have hread : State.readResponse { s with rx := bs } b = State.afterRead { s with rx := bs } b k := by
    rw [hk, hlength]; rfl
  have htaken : b :: bs.take (k - 1) = s.rx.take k := by
    rw [hrx, ← List.take_succ_cons, Nat.sub_add_cancel hpos]
  have hcount : (s.rx.take k).length = k := List.length_take_of_le havail
  rw [hread]
  refine ⟨rfl, ?_, ?_, ?_, fun a ha => ?_⟩
  · have hlt : k < 2 ^ 8 := Nat.lt_succ_of_le hmax
    rw [State.afterRead, BitVec.toNat_ofNat, Nat.mod_eq_of_lt hlt]
  · rw [hrx, ← Nat.sub_add_cancel hpos]
    rfl
  · have hback := readBytes_writeBytes _ s.mem.resp 0 (s.rx.take k) (by rwa [hcount, Nat.zero_add]) hresp
    rw [hcount] at hback
    rw [firstBytes_eq_readBytes, State.afterRead, htaken, hback]
  · rw [State.afterRead, htaken]
    exact readCell_writeBytes_outside _ 0 _ a (.inr (by omega))

/-- With RX readable and no IOERR SEND's response step makes one read, of the draw's count (43_transmitter.md R206). -/
theorem State.sendResponse_reads {s : State} (he : s.event ≠ .ioErr) (hwf : s.mem.wf = true) (hp : s.phase = .sendWait)
    (hrx : s.rx ≠ []) : ∃ t, s.sendResponse = .next t ∧ s.hasRead t (drawCount s.draw s.rx.length) := by
  obtain ⟨b, bs, hcons⟩ := List.exists_cons_of_ne_nil hrx
  obtain ⟨st, hexec⟩ := exec_decodeResponse (s := { s with rx := bs }) hp b
  exact ⟨_, (State.sendResponse_of_cons he hcons).trans hexec, State.hasRead_readResponse hwf hcons⟩

/-- Settles O34: the step reads as many bytes as its draw counts, and every count is some draw's. -/
theorem readTakesAnyAdmittedCount : Obligations.ReadTakesAnyAdmittedCount := by
  intro s ev rest hwf hp hrx hev
  have hreads (draw : Nat) : ∃ t, step { s with agenda := .block ev draw :: rest } = .next t ∧
      s.hasRead t (drawCount draw s.rx.length) := by
    have hag : State.agenda { s with agenda := .block ev draw :: rest } = .block ev draw :: rest := rfl
    rw [step_sendWait hag hp]
    exact State.sendResponse_reads hev hwf hp hrx
  refine ⟨fun draw => ?_, fun k hk hle => ?_⟩
  · obtain ⟨hpos, hmax, havail⟩ := drawCount_range draw s.rx.length (List.length_pos_iff.mpr hrx)
    obtain ⟨t, hstep, hread⟩ := hreads draw
    exact ⟨_, t, hpos, Nat.le_min.mpr ⟨hmax, havail⟩, hstep, hread⟩
  · obtain ⟨t, hstep, hread⟩ := hreads (k - 1)
    rw [drawCount_pred hk hle] at hread
    exact ⟨k - 1, t, hstep, hread⟩

/-! ### SYNC and its handshake -/

/-- Settles O35: acceptance, the flush, and the transmit step from the flushed state. -/
theorem syncFlushesAndSendsSyncByte : Obligations.SyncFlushesAndSendsSyncByte := by
  intro s hr
  have hflushed : (s.setLinkSynced false).rxFlush.ready := hr
  have hsync : exec .sync s = (s.setLinkSynced false).rxFlush.sendSyncByte := by rw [exec, execSync, hr.accept_eq]
  refine ⟨fun hev => ?_, fun hev => ?_⟩
  · rw [hsync, State.sendSyncByte, if_neg (by exact hev)]
    rfl
  · rw [hsync, State.sendSyncByte, if_pos (by exact hev), hflushed.fatal_eq]
    rfl

/-- A fatal result of the handshake wait keeps LINK_SYNCED = 0, which the block waits with (43_transmitter.md R214,
R215). -/
theorem ControlInv.fatal_of_hsWait {s : State} (h : ControlInv s) (hp : s.phase = .hsWait) (c : ResultCode) :
    s.fatal c = { s with
      phase := .idle
      status := { s.status with linkSynced := false, result := c, fault := c, aborted := true } } := by
  rw [State.fatal_eq_of_not_aborted (h.not_aborted (by simp [hp]))]
  simp [h.hsWait hp]

/-- Settles O37: the readiness step with IOERR, and with TIMEOUT while RX is empty. -/
theorem handshakeWaitFailures : Obligations.HandshakeWaitFailures := by
  intro s draw rest hinv hp
  have hfetched (ev : LinkEvent) : ControlInv { s with agenda := rest, event := ev, draw := draw } :=
    hinv.control.fetched rfl
  refine ⟨fun hag hrx => ?_, fun hag => ?_⟩
  · rw [step_hsWait hag hp, State.syncReady, if_neg (by simp), if_neg (by simp [hrx]), if_pos rfl,
      (hfetched .timeout).fatal_of_hsWait hp]
  · rw [step_hsWait hag hp, State.syncReady, if_pos rfl, (hfetched .ioErr).fatal_of_hsWait hp]

/-- Settles O38: the readiness step with RX readable, and the two waits without a step. -/
theorem handshakeReadiness : Obligations.HandshakeReadiness := by
  intro s ev draw rest hag hev
  refine ⟨fun hp hrx => ?_, fun hp hrx hnone => ?_, fun hp hlen => ?_⟩
  · rw [step_hsWait hag hp, State.syncReady, if_neg hev, if_pos hrx, State.setPhase]
  · rw [step_hsWait hag hp, State.syncReady, if_neg hev, if_neg (by simp [hrx]), if_neg (by simp [hnone])]
  · rw [step_hsRead hag hp, State.syncRead, if_neg hev, if_pos (by exact hlen)]

/-- Settles O39: the read step with a whole device ID in RX, which DEVID then holds, and with IOERR. -/
theorem deviceIdRead : Obligations.DeviceIdRead := by
  intro s ev draw rest hwf hp ha hag
  obtain ⟨-, -, -, -, -, hdid⟩ := (Memory.wf_iff s.mem).mp hwf
  refine ⟨fun hev hlen => ?_, fun hev => ?_⟩
  · have hcount : (s.rx.take devIdLen).length = devIdLen := List.length_take_of_le hlen
    have hread := readBytes_writeBytes Space.did.size s.mem.did 0 (s.rx.take devIdLen)
      (by rw [hcount, Nat.zero_add]; rfl) hdid
    rw [hcount, ← firstBytes_eq_readBytes] at hread
    rw [step_hsRead hag hp, State.syncRead, if_neg hev, if_neg (by exact Nat.not_lt.mpr hlen)]
    exact ⟨_, rfl, hread, rfl⟩
  · rw [step_hsRead hag hp, State.syncRead, if_pos hev, State.fatal_eq_of_not_aborted (by exact ha), hev]

/-! ### A silent device -/

/-- While the device is silent, no step leaves SEND_WAIT with RX empty, and none changes the block (43_transmitter.md
R205). -/
theorem step_of_silent {s : State} (hp : s.phase = .sendWait) (hrx : s.rx = []) (hsilent : s.silent = true) :
    ∃ t, step s = .next t ∧ t.silent = true ∧ t = { s with agenda := t.agenda, event := t.event, draw := t.draw } := by
  cases hag : s.agenda with
  | nil => exact ⟨s, by simp only [step, State.nextTurn, hag], hsilent, rfl⟩
  | cons tn rest =>
    rw [State.silent, hag, List.all_cons, Bool.and_eq_true] at hsilent
    obtain ⟨htn, hrest⟩ := hsilent
    cases tn with
    | host ev =>
      refine ⟨{ s with agenda := rest }, ?_, hrest, rfl⟩
      simp [step, State.nextTurn, hag, State.turn, State.hostTurn, hp]
    | block ev draw =>
      refine ⟨{ s with agenda := rest, event := ev, draw := draw }, ?_, hrest, rfl⟩
      rw [step_sendWait hag hp, State.sendResponse, if_neg (by simpa using htn), hrx]
    | device bs => cases htn
    | reset => cases htn

/-- A run of one step more is a step and the run from where it leads. -/
theorem run_succ (M : Host.Core) {s u : M.State} (h : M.step s = .next u) (n : Nat) : M.run (n + 1) s = M.run n u := by
  rw [Host.Core.run, h]

/-- Settles O40: by induction on the number of steps, each of which leaves the wait as it is. -/
theorem silentDeviceHangsSend : Obligations.SilentDeviceHangsSend := by
  intro n
  induction n with
  | zero => exact fun s _ _ _ => ⟨s, rfl, rfl⟩
  | succ n ih =>
    intro s hp hrx hsilent
    obtain ⟨u, hstep, hu, hkept⟩ := step_of_silent hp hrx hsilent
    obtain ⟨t, hrun, ht⟩ := ih u (by rw [hkept]; exact hp) (by rw [hkept]; exact hrx) hu
    exact ⟨t, (run_succ Sys2Proof.core hstep n).trans hrun, by rw [ht, hkept]⟩

/-! ### Runs without end -/

theorem State.timerArmed_iff (s : State) : s.timerArmed = true ↔ s.phase = .hsWait ∧ s.rx = [] := by
  simp [State.timerArmed]

theorem State.starved.phase_ne_hsWait {s : State} (h : s.starved) : s.phase ≠ .hsWait := by
  obtain ⟨hp, -⟩ | ⟨hp, -⟩ := h <;> simp [hp]

/-- A move from one wait to another takes nothing from RX, and goes from HS_WAIT to HS_READ or nowhere. -/
theorem Move.of_waiting {s t : State} (hm : Move s t) (hs : s.phase ≠ .idle) (ht : t.phase ≠ .idle) :
    s.rx <+: t.rx ∧ (t.phase = s.phase ∨ (s.phase = .hsWait ∧ t.phase = .hsRead)) := by
  cases hm with
  | stay => exact ⟨List.prefix_rfl, .inl rfl⟩
  | device bs => exact ⟨List.prefix_append _ _, .inl rfl⟩
  | syncReady hp => exact ⟨List.prefix_rfl, .inr ⟨hp, rfl⟩⟩
  | response _ b rest _ _ hcls => obtain ⟨-, rfl⟩ | ⟨-, rfl⟩ | ⟨-, -, rfl⟩ := hcls <;> exact absurd rfl ht
  | waitFatal | syncComplete => exact absurd rfl ht
  | _ => exact absurd ‹s.phase = .idle› hs

/-- With RX readable SEND's response step ends its wait (43_transmitter.md R206, R209). -/
theorem State.sendResponse_idle {s t : State} (h : s.sendResponse = .next t) (hp : s.phase = .sendWait)
    (hrx : s.rx ≠ []) : t.phase = .idle := by
  by_cases he : s.event = .ioErr
  · rw [State.sendResponse, if_pos he] at h
    cases h
    rfl
  · obtain ⟨b, bs, hcons⟩ := List.exists_cons_of_ne_nil hrx
    obtain ⟨st, hexec⟩ := exec_decodeResponse (s := { s with rx := bs }) hp b
    rw [State.sendResponse_of_cons he hcons, hexec] at h
    cases h
    rfl

/-- SYNC's readiness step stays in HS_WAIT only with RX empty and without TIMEOUT (43_transmitter.md R213, R214). -/
theorem State.rx_of_syncReady_waits {s : State} (h : s.syncReady.phase = .hsWait) : s.rx = [] ∧ s.event ≠ .timeout := by
  obtain ⟨-, he⟩ | ⟨-, -, he⟩ | ⟨-, -, he⟩ | ⟨hev, hrx, -⟩ := s.syncReady_cases
  case inr.inr.inr => exact ⟨hrx, by simp [hev]⟩
  all_goals rw [he] at h; cases h

/-- SYNC's read step stays in HS_READ only with fewer than 24 bytes in RX (43_transmitter.md R216). -/
theorem State.rx_of_syncRead_waits {s : State} (h : s.syncRead.phase = .hsRead) : s.rx.length < devIdLen := by
  obtain ⟨-, he⟩ | ⟨-, hlen, -⟩ | ⟨-, -, he⟩ := s.syncRead_cases
  case inr.inl => exact hlen
  all_goals rw [he] at h; cases h

/-- A block's step that does not end its wait phase found no step: it lacks device bytes, or it is in HS_WAIT with RX
empty and without TIMEOUT (43_transmitter.md R205, R213, R216). -/
theorem step_block_waits {s t : State} {ev : LinkEvent} {draw : Nat} {rest : List Turn}
    (hag : s.agenda = .block ev draw :: rest) (hs : s.phase ≠ .idle) (hstep : step s = .next t)
    (ht : t.phase = s.phase) : s.starved ∨ (s.timerArmed = true ∧ ev ≠ .timeout) := by
  cases hp : s.phase with
  | idle => exact absurd hp hs
  | sendWait =>
    by_cases hrx : s.rx = []
    · exact .inl (.inl ⟨hp, hrx⟩)
    · rw [step_sendWait hag hp] at hstep
      exact absurd (ht ▸ State.sendResponse_idle hstep hp hrx) hs
  | hsWait =>
    rw [step_hsWait hag hp] at hstep
    cases hstep
    obtain ⟨hrx, hev⟩ := State.rx_of_syncReady_waits (ht.trans hp)
    exact .inr ⟨s.timerArmed_iff.mpr ⟨hp, hrx⟩, hev⟩
  | hsRead =>
    rw [step_hsRead hag hp] at hstep
    cases hstep
    have hlen := State.rx_of_syncRead_waits (ht.trans hp)
    exact .inl (.inr ⟨hp, hlen⟩)

/-- Before a step of a run the turn of that step is put on the agenda, and the host's actions on its queue. -/
def Run.before (r : Run) (n : Nat) : State :=
  { r.state n with agenda := [r.turns n], hostQ := (r.state n).hostQ ++ r.acts n }

theorem Run.step_before (r : Run) (n : Nat) : step (r.before n) = .next (r.state (n + 1)) := r.steps n

/-- A step of a run from one wait to another takes nothing from RX, and goes from HS_WAIT to HS_READ or nowhere. -/
theorem Run.step_of_waiting (r : Run) {n : Nat} (hs : (r.state n).phase ≠ .idle)
    (ht : (r.state (n + 1)).phase ≠ .idle) :
    (r.state n).rx <+: (r.state (n + 1)).rx ∧ ((r.state (n + 1)).phase = (r.state n).phase ∨
      ((r.state n).phase = .hsWait ∧ (r.state (n + 1)).phase = .hsRead)) := by
  obtain ⟨rest, -, he⟩ | ⟨-, u, hu, -, -, hm⟩ := step_cases _ _ (r.step_before n)
  · exact absurd (by rw [he]; rfl) ht
  · have hphase : u.phase = (r.state n).phase := hu.phase_eq
    have hrx : u.rx = (r.state n).rx := by rw [hu]; rfl
    rw [← hphase, ← hrx]
    exact hm.of_waiting (by rwa [hphase]) ht

/-- The run stays in one wait phase from step `n` on. -/
def Run.staysFrom (r : Run) (n : Nat) : Prop :=
  (r.state n).phase ≠ .idle ∧ ∀ m, n ≤ m → (r.state m).phase = (r.state n).phase

/-- A block that waits without end keeps what stands in RX. -/
theorem Run.staysFrom.rx_prefix {r : Run} {n m k : Nat} (h : r.staysFrom n) (hnm : n ≤ m) (hmk : m ≤ k) :
    (r.state m).rx <+: (r.state k).rx := by
  obtain ⟨hidle, hsame⟩ := h
  induction k, hmk using Nat.le_induction with
  | base => exact List.prefix_rfl
  | succ k hmk ih =>
    have hk : (r.state k).phase ≠ .idle := by rwa [hsame k (by omega)]
    have hk' : (r.state (k + 1)).phase ≠ .idle := by rwa [hsame (k + 1) (by omega)]
    exact ih.trans (r.step_of_waiting hk hk').1

/-- A turn of the block that leaves the phase of a run as it is finds the block without a step. -/
theorem Run.waits_of_isBlock {r : Run} {n : Nat} (hidle : (r.state n).phase ≠ .idle)
    (hsame : (r.state (n + 1)).phase = (r.state n).phase) (hblock : (r.turns n).isBlock = true) :
    (r.state n).starved ∨ ((r.state n).timerArmed = true ∧ (r.turns n).isTimeout = false) := by
  cases htn : r.turns n with
  | block ev draw =>
    have hag : (r.before n).agenda = .block ev draw :: [] := by rw [Run.before, htn]
    obtain hst | ⟨harmed, hev⟩ := step_block_waits hag hidle (r.step_before n) hsame
    · exact .inl hst
    · exact .inr ⟨harmed, decide_eq_false hev⟩
  | host | device | reset => rw [htn] at hblock; cases hblock

theorem Turn.isBlock_of_isTimeout {tn : Turn} (h : tn.isTimeout = true) : tn.isBlock = true := by
  cases tn with
  | block => rfl
  | host | device | reset => cases h

/-- Where TIMEOUT is weakly fair the handshake timer does not stay armed (43_transmitter.md R213). -/
theorem Run.timeoutFair.disarms {r : Run} (hfair : r.timeoutFair) (n : Nat) :
    ∃ m, n ≤ m ∧ ¬(r.state m).timerArmed = true := by
  by_contra! harmed
  obtain ⟨m, hm, htimeout⟩ := hfair n harmed
  obtain ⟨hp, -⟩ := (State.timerArmed_iff _).mp (harmed m hm)
  obtain ⟨hp', -⟩ := (State.timerArmed_iff _).mp (harmed (m + 1) (by omega))
  obtain hst | ⟨-, hquiet⟩ :=
    Run.waits_of_isBlock (by simp [hp]) (hp'.trans hp.symm) (Turn.isBlock_of_isTimeout htimeout)
  · exact hst.phase_ne_hsWait hp
  · simp [htimeout] at hquiet

/-- A block that keeps stepping and yet waits without end lacks device bytes at every step. -/
theorem Run.staysFrom.lacks_bytes {r : Run} {n : Nat} (h : r.staysFrom n) (hmoves : r.blockMoves) {m : Nat}
    (hnm : n ≤ m) : (r.state m).starved ∨ (r.state m).timerArmed = true := by
  obtain ⟨k, hmk, hblock⟩ := hmoves m
  have hrx : (r.state m).rx <+: (r.state k).rx := h.rx_prefix hnm hmk
  obtain ⟨hidle, hsame⟩ := h
  have hk := hsame k (by omega)
  have hm : (r.state m).phase = (r.state k).phase := by rw [hk, hsame m hnm]
  obtain (⟨hp, hempty⟩ | ⟨hp, hlen⟩) | ⟨harmed, -⟩ := Run.waits_of_isBlock (by rwa [hk])
    (by rw [hk, hsame (k + 1) (by omega)]) hblock
  · exact .inl (.inl ⟨hm.trans hp, List.prefix_nil.mp (hempty ▸ hrx)⟩)
  · exact .inl (.inr ⟨hm.trans hp, hrx.length_le.trans_lt hlen⟩)
  · obtain ⟨hp, hempty⟩ := (State.timerArmed_iff _).mp harmed
    exact .inr ((State.timerArmed_iff _).mpr ⟨hm.trans hp, List.prefix_nil.mp (hempty ▸ hrx)⟩)

/-- HS_WAIT ends in every run the spec admits (43_transmitter.md R213). -/
theorem Run.fair.hsWait_ends {r : Run} (hfair : r.fair) (n : Nat) : ∃ m, n ≤ m ∧ (r.state m).phase ≠ .hsWait := by
  obtain ⟨htimeout, hmoves⟩ := hfair
  by_contra! hwait
  have hstays : r.staysFrom n := ⟨by simp [hwait n le_rfl], fun m hm => by rw [hwait m hm, hwait n le_rfl]⟩
  obtain ⟨m, hm, harmed⟩ := htimeout.disarms n
  exact ((hstays.lacks_bytes hmoves hm).resolve_right harmed).phase_ne_hsWait (hwait m hm)

/-- Outside HS_WAIT a wait that does not end stays what it is. -/
theorem Run.staysFrom_of_never_idle {r : Run} {n : Nat} (hne : (r.state n).phase ≠ .hsWait)
    (hidle : ∀ m, n ≤ m → (r.state m).phase ≠ .idle) : r.staysFrom n := by
  refine ⟨hidle n le_rfl, fun m hm => ?_⟩
  induction m, hm using Nat.le_induction with
  | base => rfl
  | succ m hm ih =>
    obtain ⟨-, hsame | ⟨hw, -⟩⟩ := r.step_of_waiting (hidle m hm) (hidle (m + 1) (by omega))
    · rw [hsame, ih]
    · exact absurd (ih ▸ hw) hne

/-- Settles O60: a timer that disarms has left HS_WAIT or has RX readable, and a wait that neither ends nor is HS_WAIT
lacks device bytes for ever. -/
theorem fairWaitsEndOrHang : Obligations.FairWaitsEndOrHang := by
  refine ⟨fun r n hfair _ => ?_, fun r n hfair => ⟨hfair.hsWait_ends n, ?_⟩⟩
  · obtain ⟨m, hm, harmed⟩ := hfair.disarms n
    rw [State.timerArmed_iff, not_and_or] at harmed
    exact ⟨m, hm, harmed⟩
  · by_cases hback : ∃ m, n ≤ m ∧ (r.state m).phase = .idle
    · exact .inl hback
    · obtain ⟨m, hm, hne⟩ := hfair.hsWait_ends n
      have hstays : r.staysFrom m :=
        Run.staysFrom_of_never_idle hne fun k hk hidle => hback ⟨k, by omega, hidle⟩
      have ⟨_, hsame⟩ := hstays
      have ⟨_, hmoves⟩ := hfair
      refine .inr ⟨m, hm, fun k hk => ⟨?_, hsame k hk⟩⟩
      refine (hstays.lacks_bytes hmoves hk).resolve_right fun harmed => ?_
      obtain ⟨hp, -⟩ := (State.timerArmed_iff _).mp harmed
      exact hne (hsame k hk ▸ hp)

end Sys2Proof.Machine

/-! PROOFS. The exceptions family (60_exceptions.md): request acceptance in an aborted and in a busy block, the aborted
block until reset, the instruction a step runs, and the host contract of a session. -/
namespace Sys2Proof.Machine

/-! ### Acceptance in a block that is aborted or busy -/

/-- Settles O41: every row but a response row goes through acceptance, which refuses. -/
theorem abortedBlockRefusesAll : Obligations.AbortedBlockRefusesAll := by
  intro i s hi hp ha
  obtain ⟨run, hrun⟩ := exec_eq_accept i s hi
  exact hrun.trans (s.accept_aborted run hp ha)

/-- Settles O42: acceptance takes no step, and neither does the host's turn. -/
theorem busyBlockTakesNoRequest : Obligations.BusyBlockTakesNoRequest := by
  refine ⟨fun i s hi hp => ?_, fun s ev rest hp hag => ?_⟩
  · obtain ⟨run, hrun⟩ := exec_eq_accept i s (by rw [hi]; decide)
    exact hrun.trans (s.accept_busy run hp)
  · simp only [step, State.nextTurn, hag, State.turn, State.hostTurn]
    exact if_pos hp

/-! ### The aborted block until reset -/

/-- What an aborted block keeps until reset: all but RESULT, which stays or is REFUSED, RX, which only gains bytes, the
host's LINEBUF, LINELEN and CKBUF, and the model's own fields (60_exceptions.md R269). -/
def State.abortedKeeps (s t : State) : Prop :=
  (t.status.result = s.status.result ∨ t.status.result = .refused) ∧ s.rx <+: t.rx ∧
    t = { s with
      status := { s.status with result := t.status.result }
      mem := { s.mem with line := t.mem.line, ckb := t.mem.ckb }
      lineLen := t.lineLen, rx := t.rx, hostQ := t.hostQ, agenda := t.agenda, event := t.event, draw := t.draw }

theorem State.abortedKeeps.refl (s : State) : s.abortedKeeps s := ⟨.inl rfl, List.prefix_rfl, rfl⟩

theorem State.abortedKeeps.trans {s u t : State} (hsu : s.abortedKeeps u) (hut : u.abortedKeeps t) :
    s.abortedKeeps t := by
  obtain ⟨hres, hrx, hu⟩ := hsu
  obtain ⟨hres', hrx', ht⟩ := hut
  refine ⟨hres'.elim (fun h => hres.imp h.trans h.trans) .inr, hrx.trans hrx', ht.trans ?_⟩
  rw [hu]

theorem State.abortedKeeps.aborted {s t : State} (h : s.abortedKeeps t) (ha : s.status.aborted = true) :
    t.status.aborted = true := by
  obtain ⟨-, -, ht⟩ := h
  rw [ht, ha]

theorem Fetched.abortedKeeps {s u : State} (hu : Fetched s u) : s.abortedKeeps u := by
  rw [hu]
  exact ⟨.inl rfl, List.prefix_rfl, rfl⟩

/-- A move of an aborted block writes no RESULT but REFUSED, and no agent but the device touches RX (60_exceptions.md
R244). -/
theorem Move.aborted_result_rx {s t : State} (hm : Move s t) (hp : s.phase = .idle) (ha : s.status.aborted = true) :
    (t.status.result = s.status.result ∨ t.status.result = .refused) ∧ s.rx <+: t.rx := by
  cases hm with
  | stay | hostLine | hostLineByte | hostLineLen | hostCkbuf => exact ⟨.inl rfl, List.prefix_rfl⟩
  | refuse => exact ⟨.inr rfl, List.prefix_rfl⟩
  | device bs => exact ⟨.inl rfl, List.prefix_append _ bs⟩
  | waitFatal hw => exact absurd hp hw
  | response hw | syncReady hw | syncComplete hw => rw [hp] at hw; cases hw
  | _ hidle hna => rw [ha] at hna; cases hna

theorem Move.abortedKeeps {s t : State} (hm : Move s t) (hp : s.phase = .idle) (ha : s.status.aborted = true) :
    s.abortedKeeps t := by
  obtain ⟨hres, hrx⟩ := hm.aborted_result_rx hp ha
  obtain ⟨hag, hq, hev, hdraw⟩ := hm.keeps_own_fields
  refine ⟨hres, hrx, ?_⟩
  rw [hag, hq, hev, hdraw]
  exact hm.aborted_frame hp ha

/-- Without a reset a step of an aborted block keeps the block as it is (60_exceptions.md R244, R269). -/
theorem step_abortedKeeps {s t : State} (h : ControlInv s) (ha : s.status.aborted = true) (hn : s.noResetNext)
    (hstep : step s = .next t) : s.abortedKeeps t := by
  obtain ⟨u, hu, hm⟩ := step_move hn hstep
  exact hu.abortedKeeps.trans
    (hm.abortedKeeps (by rw [hu.phase_eq, h.abortedIdle ha]) (by rw [hu.status_eq, ha]))

theorem State.noReset.next {s : State} (h : s.noReset) : s.noResetNext := fun hhead =>
  h (List.mem_of_head? hhead)

theorem State.noReset.step {s t : State} (h : s.noReset) (hstep : step s = .next t) : t.noReset := by
  rw [State.noReset, step_agenda s t hstep]
  exact fun hmem => h (List.mem_of_mem_tail hmem)

/-- A run of one step more that answers is a step that answers and the run from where it leads. -/
theorem run_succ_cases (M : Host.Core) {n : Nat} {s t : M.State} (h : M.run (n + 1) s = .next t) :
    ∃ u, M.step s = .next u ∧ M.run n u = .next t := by
  rw [Host.Core.run] at h
  split at h
  · next u hu => exact ⟨u, hu, h⟩
  · cases h
  · cases h

/-- Settles O44: by induction on the number of steps, each of which is a move of an aborted block. -/
theorem abortedSessionSendsNothing : Obligations.AbortedSessionSendsNothing := by
  have hruns (n : Nat) : ∀ s t : State, ControlInv s → s.status.aborted = true → s.noReset →
      Host.Core.run Sys2Proof.core n s = .next t → s.abortedKeeps t := by
    induction n with
    | zero =>
      intro s t _ _ _ hrun
      cases hrun
      exact .refl s
    | succ n ih =>
      intro s t hinv ha hn hrun
      obtain ⟨u, hstep, hrun⟩ := run_succ_cases Sys2Proof.core hrun
      have hkeeps : s.abortedKeeps u := step_abortedKeeps hinv ha hn.next hstep
      exact hkeeps.trans (ih u t (step_keeps_controlInv hinv hstep) (hkeeps.aborted ha) (hn.step hstep) hrun)
  exact fun n s t hinv => hruns n s t hinv.control

/-! ### The instruction of a step -/

/-- Settles O47: the host's oldest action is the word, and byte 0 of RX decodes to its class. -/
theorem stepRunsDecodedInstruction : Obligations.StepRunsDecodedInstruction := by
  refine ⟨fun s w i ev turns acts hp hag hq hdec => ?_, fun s b bs i ev draw turns hp hag hev hrx hdec => ?_⟩
  · rw [step_hostAct hp hag hq, State.hostAct, State.request, hdec]
  · have hrow : decodeResponse b = i := by
      have hwire := decode_wireBits (place := .rxResponse0) (by decide) b
      exact Except.ok.inj (hwire.symm.trans hdec)
    rw [step_sendWait hag hp, State.sendResponse_of_cons (by exact hev) (by exact hrx), hrow]

/-! ### The host that aborts its session -/

@[simp] theorem Session.at_stage (h : Session) (stage : Stage) : (h.at stage).stage = stage := rfl

theorem Session.require_of_ne {h : Session} {expected r : ResultCode} (hr : r ≠ expected) (stage : Stage) :
    h.require expected r stage = h.at (.cleanup false) := if_neg hr

theorem Session.advance_cleanup {h : Session} {ok : Bool} (hs : h.stage = .cleanup ok) (r : ResultCode) :
    h.advance r = (h, .stay) := by
  rw [Session.advance, hs]

/-- Cleanup absorbs any list of results (60_exceptions.md R268). -/
theorem Session.decisions_cleanup {h : Session} {ok : Bool} (hs : h.stage = .cleanup ok) (rs : List ResultCode) :
    h.decisions rs = (h, rs.map fun _ => .stay) := by
  induction rs with
  | nil => rfl
  | cons r rs ih => simp only [Session.decisions, h.advance_cleanup hs, ih, List.map_cons]

theorem openStage_of_no_file {p : Pending} (hp : p.write = true ∨ p.verify = true) :
    openStage p none = .cleanup false := by
  rw [openStage, if_pos (by rwa [Bool.or_eq_true])]

/-- Settles O57: cleanup absorbs every result, and each failing decision goes to cleanup with nothing given. -/
theorem failedSessionStops : Obligations.FailedSessionStops := by
  refine ⟨fun h ok rs hs => Session.decisions_cleanup hs rs, fun h r => ?_⟩
  refine ⟨fun hs hr => ?_, fun hs hr => ?_, fun hs hfile hp => ?_, fun pass rest hs hok hskip => ?_,
    fun pass rest hs hr => ?_⟩
  · simp [Session.advance, hs, Session.require_of_ne hr]
  · simp [Session.advance, hs, Session.require_of_ne hr]
  · simp [Session.advance, hs, hfile, openStage_of_no_file hp]
  · simp [Session.advance, hs, hok, hskip]
  · simp [Session.advance, hs, Session.require_of_ne hr]

/-! ### The phases of a session -/

theorem Session.require_pending (h : Session) (expected r : ResultCode) (stage : Stage) :
    (h.require expected r stage).pending = h.pending := by
  unfold Session.require
  split <;> rfl

/-- The pending set changes where the Erase result is read and where a walk ends (60_exceptions.md R261; log 28). -/
theorem Session.advance_pending_cases (h : Session) (r : ResultCode) :
    (h.stage = .eraseResult ∧ (h.advance r).1.pending = h.pending.afterErase r) ∨
      (∃ pass, h.stage = .lineLoad pass [] ∧ (h.advance r).1.pending = h.pending.remove pass) ∨
      (h.stage ≠ .eraseResult ∧ (∀ pass, h.stage ≠ .lineLoad pass []) ∧ (h.advance r).1.pending = h.pending) := by
  obtain ⟨p, file, stage⟩ := h
  cases stage with
  | eraseResult => exact .inl ⟨rfl, Session.require_pending _ _ _ _⟩
  | lineLoad pass rest =>
    cases rest with
    | nil => exact .inr (.inl ⟨pass, rfl, rfl⟩)
    | cons l rest => exact .inr (.inr ⟨nofun, nofun, rfl⟩)
  | handshakeResult | lineResult => exact .inr (.inr ⟨nofun, nofun, Session.require_pending _ _ _ _⟩)
  | lineDecoded =>
    refine .inr (.inr ⟨nofun, nofun, ?_⟩)
    simp only [Session.advance]
    split_ifs <;> rfl
  | _ => exact .inr (.inr ⟨nofun, nofun, rfl⟩)

theorem Pending.afterErase_erase (p : Pending) (r : ResultCode) :
    (p.afterErase r).erase = true ↔ p.erase = true ∧ r ≠ .ack := by
  by_cases hr : r = .ack <;> simp [Pending.afterErase, hr]

theorem Pending.afterErase_walks (p : Pending) (r : ResultCode) :
    (p.afterErase r).write = p.write ∧ (p.afterErase r).verify = p.verify := by
  unfold Pending.afterErase
  split <;> exact ⟨rfl, rfl⟩

/-- Erase leaves the pending set on the ACK of its packet, a walk at its end, and nothing enters the set. -/
theorem Session.advance_pending_iff (h : Session) (r : ResultCode) :
    ((h.advance r).1.pending.erase = true ↔ h.pending.erase = true ∧ ¬(h.stage = .eraseResult ∧ r = .ack)) ∧
      ((h.advance r).1.pending.write = true ↔ h.pending.write = true ∧ h.stage ≠ .lineLoad .write []) ∧
      ((h.advance r).1.pending.verify = true ↔ h.pending.verify = true ∧ h.stage ≠ .lineLoad .verify []) := by
  obtain ⟨hs, hp⟩ | ⟨pass, hs, hp⟩ | ⟨hs, hs', hp⟩ := h.advance_pending_cases r
  · simp [hp, hs, Pending.afterErase_erase, Pending.afterErase_walks]
  · cases pass <;> simp [hp, hs, Pending.remove]
  · simp [hp, hs, hs']

/-- The first step of a session is reset, the host's queue dropped (60_exceptions.md R262; log 26). -/
theorem System.step_powerOn {y : System} (hs : y.host.stage = .powerOn) :
    y.step = .next { host := y.host.at .handshake, block := State.applyReset { y.block with hostQ := [] } } := by
  have hdecides : y.hostDecides =
      { host := y.host.at .handshake, block := { y.block with agenda := .reset :: y.block.agenda, hostQ := [] } } := by
    simp [System.hostDecides, hostMayDecide, hs, Session.advance, State.giveMove]
  rw [System.step, hdecides]
  rfl

theorem Session.consistent_require {h : Session} {expected r : ResultCode} {stage : Stage}
    (hc : r = expected → (h.at stage).consistent) : (h.require expected r stage).consistent := by
  unfold Session.require
  split
  · next hr => exact hc hr
  · trivial

theorem Pending.eq_none {p : Pending} (he : p.erase = false) (hw : p.write = false) (hv : p.verify = false) :
    p = ⟨false, false, false⟩ := by
  cases p
  exact congr (congr (congrArg Pending.mk he) hw) hv

/-- The next walk is Write while Write is pending, then Verify; Run needs an empty set (60_exceptions.md R265, R266). -/
theorem Session.consistent_nextWalk {h : Session} (he : h.pending.erase = false) (lines : List (List Byte)) :
    (h.at (nextWalk h.pending lines)).consistent := by
  unfold nextWalk
  split
  · next hw => exact ⟨he, iff_of_true hw rfl⟩
  · next hw =>
    split
    · exact ⟨he, iff_of_false hw nofun⟩
    · next hv => exact Pending.eq_none he (Bool.eq_false_of_not_eq_true hw) (Bool.eq_false_of_not_eq_true hv)

theorem Session.consistent_openStage {h : Session} (he : h.pending.erase = false) :
    (h.at (openStage h.pending h.file)).consistent := by
  unfold openStage
  split
  · split
    · trivial
    · exact h.consistent_nextWalk he _
  · next hnone =>
    obtain ⟨hw, hv⟩ : h.pending.write = false ∧ h.pending.verify = false := by simpa using hnone
    exact Pending.eq_none he hw hv

theorem Pending.remove_erase (p : Pending) (pass : Pass) : (p.remove pass).erase = p.erase := by
  cases pass <;> rfl

/-- Every decision of a consistent session leaves it consistent (60_exceptions.md R261). -/
theorem Session.consistent.advance {h : Session} (hc : h.consistent) (r : ResultCode) :
    (h.advance r).1.consistent := by
  obtain ⟨p, file, stage⟩ := h
  cases stage with
  | powerOn | handshake | eraseBuild | eraseSend | runResult | cleanup => trivial
  | handshakeResult =>
    refine Session.consistent_require fun _ => ?_
    split
    · trivial
    · next he => exact Bool.eq_false_of_not_eq_true he
  | eraseResult =>
    refine Session.consistent_require fun hr => ?_
    rw [hr]
    rfl
  | openFile => exact Session.consistent_openStage hc
  | lineLoad pass rest =>
    cases rest with
    | nil =>
      obtain ⟨he, -⟩ := hc
      exact Session.consistent_openStage (h := ⟨p.remove pass, file, .lineLoad pass []⟩)
        ((p.remove_erase pass).trans he)
    | cons l rest => exact hc
  | lineDecoded pass rest =>
    simp only [Session.advance]
    split_ifs
    · exact hc
    · exact hc
    · trivial
  | lineResult => exact Session.consistent_require fun _ => hc
  | lineDecode | lineSend | runBuild | runSend => exact hc

/-- A decision issues BUILD_R only to begin Run, and BUILD_V only for a line of the Verify walk (60_exceptions.md R265,
R266). -/
theorem Session.stage_of_issue_build (h : Session) (r : ResultCode) :
    ((h.advance r).2 = .issue .buildR → h.stage = .runBuild) ∧
      ((h.advance r).2 = .issue .buildV → ∃ rest, h.stage = .lineDecoded .verify rest) := by
  obtain ⟨p, file, stage⟩ := h
  cases stage with
  | runBuild =>
    simp only [Session.advance]
    exact ⟨fun _ => trivial, fun hm => absurd hm (by decide)⟩
  | lineLoad pass rest => cases rest <;> exact ⟨nofun, nofun⟩
  | lineDecoded pass rest =>
    simp only [Session.advance]
    split_ifs
    · exact ⟨nofun, nofun⟩
    · cases pass with
      | write =>
        simp only [Pass.build]
        exact ⟨fun hm => absurd hm (by decide), fun hm => absurd hm (by decide)⟩
      | verify =>
        simp only [Pass.build]
        exact ⟨fun hm => absurd hm (by decide), fun _ => ⟨rest, rfl⟩⟩
    · exact ⟨nofun, nofun⟩
  | _ =>
    simp only [Session.advance]
    exact ⟨fun hm => absurd hm (by decide), fun hm => absurd hm (by decide)⟩

/-- Settles O58: the reset turn comes first, the pending set changes at two stages only, and the consistency of the one
stage that issues BUILD_R, or BUILD_V, gives what must have left the set. -/
theorem runComesAfterRequestedPhases : Obligations.RunComesAfterRequestedPhases := by
  refine ⟨fun y hs => System.step_powerOn hs, fun h r => ?_⟩
  obtain ⟨herase, hwrite, hverify⟩ := h.advance_pending_iff r
  obtain ⟨hbuildR, hbuildV⟩ := h.stage_of_issue_build r
  refine ⟨herase, hwrite, hverify, fun hc => ⟨hc.advance r, fun hm => ?_, fun hm => ?_⟩⟩
  · rwa [Session.consistent, hbuildR hm] at hc
  · obtain ⟨rest, hs⟩ := hbuildV hm
    rw [Session.consistent, hs] at hc
    obtain ⟨-, hpending⟩ := hc
    simpa using hpending

end Sys2Proof.Machine

/-! PROOFS. The reset and hazards family (70_reset_and_hazards.md): what HEXDEC and CKSUM answer right after reset. -/
namespace Sys2Proof.Machine

/-- The block accepts requests right after reset (10_state.md R40). -/
theorem State.ready_reset : State.reset.ready := ⟨rfl, rfl⟩

/-- A space with nothing listed sums to 0 over any of its bytes (10_state.md R40, 40_checksum.md R125). -/
theorem sum8_readBytes_nil (a n : Nat) : sum8 (readBytes [] a n) = 0 := by
  induction n generalizing a with
  | zero => rfl
  | succ n ih =>
    rw [readBytes, sum8_cons, ih]
    rfl

/-- Settles O46: the line of reset is empty, so it has no marker, and its CKBUF is empty, so it sums to the CKACC of
reset. -/
theorem firstOperationsAfterReset : Obligations.FirstOperationsAfterReset := by
  refine ⟨?_, fun n hn => ?_⟩
  · have hmark : State.reset.fieldChars.head? ≠ some 0x3A := by decide
    exact hexdecRequiresMarker State.reset State.ready_reset (Nat.zero_le _) hmark
  · have hsum : sum8 (readBytes State.reset.mem.ckb 0 n.toNat) = 0 := sum8_readBytes_nil 0 n.toNat
    rw [State.ready_reset.exec_cksum hn, hsum]
    rfl

end Sys2Proof.Machine
